-- ==== Sys2Proof/Word.lean ====
section
/-! DEFINITION. The word types of QSEQ (rule R10: bit 0 is the least significant bit, all quantities unsigned,
arithmetic on a W-bit register is modulo 2^W). -/

namespace Sys2Proof

/-- One byte: a flash opcode, a data byte, a status byte (rules R60, R66, R92). -/
abbrev Byte := BitVec 8

/-- A 32-bit working or command register (rules R21, R24). -/
abbrev Word := BitVec 32

/-- The 24-bit address of a bus transaction (rules R69, R92). -/
abbrev Addr24 := BitVec 24

/-- The 64-bit result register (rule R24). -/
abbrev DWord := BitVec 64

/-- One host command, `CMD_ARG :: CMD_LEN :: CMD_ADDR :: CMD_OP` (rule R90). -/
abbrev HostWord := BitVec 104

end Sys2Proof
end

