-- ==== Sys2Proof/Syntax.lean ====
section
/-! DEFINITION. The two instruction levels of QSEQ: host operations (format HC, rules R90 to R97) and flash
commands (format BT, rules R92 to R96), the bus transaction descriptor and the frame the device sees. -/

namespace Sys2Proof

/-- The block-size variant of an erase (rule R97). -/
inductive BlockSize where
  | b4K | b32K | b64K | all
deriving DecidableEq, Repr, Inhabited

/-- A line count of the bus transaction: 0, 1 or 4 (rule R92; 0 means that the phase is absent). -/
inductive Lines where
  | absent | one | four
deriving DecidableEq, Repr, Inhabited

/-- The data direction of a bus transaction, seen from SEQ (rule R92). -/
inductive Direction where
  | none | read | write
deriving DecidableEq, Repr, Inhabited

/-- The Bus Transaction register `TXN` (rules R23, R92): the descriptor handed to the controller. -/
structure Txn where
  opcode        : Byte
  addr          : Addr24
  addrLines     : Lines
  addrWidthBits : BitVec 6
  dataLines     : Lines
  dummyCycles   : BitVec 5
  direction     : Direction
  length        : Word
deriving DecidableEq, Repr, Inhabited

/-- The data phase of a frame (rule R93): none; `n` bytes the device supplies; the bytes SEQ supplied. -/
inductive DataPhase where
  | none
  | read (n : Word)
  | write (bytes : List Byte)
deriving DecidableEq, Repr, Inhabited

/-- The frame the device sees of one issued transaction (rule R93). Rule R93's `direction` and `data` are one field,
`data`; for a read frame the bytes are the device's to supply and only their number stands here. -/
structure Frame where
  opcode      : Byte
  addr        : Option Addr24
  addrLines   : Lines
  dummyCycles : BitVec 5
  dataLines   : Lines
  data        : DataPhase
deriving DecidableEq, Repr, Inhabited

/-- One constructor per row of `spec/opcode_table.json`: the fifteen host operations (rule R95) and the eleven flash
commands (rule R96). A host operation carries the operands rule R95 lists for it and no others; a flash command
carries the operands of its frame shape (rule R94). -/
inductive Instr where
  -- host operations, format HC
  | readStatus
  | waitNotBusy (maxWait : Word)
  | sendCommand (opcode : Byte) (addr : Option Word)
  | writeEnable
  | resetMemory
  | read (addr len : Word)
  | write (addr len : Word)
  | erase (addr : Word) (variant : BlockSize)
  | chipErase
  | initBus
  | deinitBus
  | abiInitialize
  | abiProgram (addr len : Word)
  | abiEraseRange (first last : Word)
  | abiVerify
  -- flash commands, format BT
  | rdsr
  | wren
  | wrdi
  | rsten
  | rst
  | qread (addr : Addr24) (len : Word)
  | qpp (addr : Addr24) (data : List Byte)
  | se4k (addr : Addr24)
  | be32k (addr : Addr24)
  | be64k (addr : Addr24)
  | ce
deriving DecidableEq, Repr

end Sys2Proof
end

