-- ==== Sys2Proof/Config.lean ====
section
/-! DEFINITION. What an implementation fixes (the parameter record `Cfg` of rule R8) and the free values: constants
with no body, which nothing in Lean can evaluate. -/

namespace Sys2Proof

/-- The seven initialisation fields of the controller (rules R33, R171). Their widths and values are not in the
source (D33): they are held as plain numbers, copied and never read. -/
structure BusInit where
  fifoThreshold  : Nat
  prescaler      : Nat
  sampleShift    : Nat
  addressingMode : Nat
  flashSize      : Nat
  csHold         : Nat
  clockMode      : Nat
deriving DecidableEq, Repr, Inhabited

/-- A set of controller flags: BUSY, TC, FT (rule R29). Used for a sample, for a mask and for the flags asked for. -/
structure FlagSet where
  busy : Bool
  tc   : Bool
  ft   : Bool
deriving DecidableEq, Repr, Inhabited

/-- One step an agent of the environment may take between two SEQ steps (rule R13): the controller moves one byte
or ends a frame (rule R221), or the device ends its internal operation (rule R203). -/
inductive AgentStep where
  | bri | dev
deriving DecidableEq, Repr, Inhabited

/-- What the environment answers at one SEQ step (rules R13, R211): under ENV-REF the agent steps taken after it,
in order; under ENV-ANY the flag set a `bri.flags()` returns and the byte a `bri.read_byte()` returns. -/
structure Draw where
  moves : List AgentStep
  flags : FlagSet
  byte  : Byte
deriving DecidableEq, Repr, Inhabited

/-- The parameters to which the source gives no value (decisions D16, D17, D18, D33). The default values below make
the type inhabited and are the vector-only values of the spec's configuration CFG-T; no definition of the machine
uses them. -/
structure OpenParams where
  opReadStatus    : Byte := 0x05
  opWriteEnable   : Byte := 0x06
  opWriteDisable  : Byte := 0x04
  opResetEnable   : Byte := 0x66
  opResetMemory   : Byte := 0x99
  opQuadRead      : Byte := 0xEB
  opQuadProgram   : Byte := 0x32
  opErase4K       : Byte := 0x20
  opErase32K      : Byte := 0x52
  opErase64K      : Byte := 0xD8
  opBulkErase     : Byte := 0xC7
  dummyFastRead   : BitVec 5 := 8
  dummyQuadRead   : BitVec 5 := 10
  progAddrLines   : Lines := .one
  srBusyBit       : Nat := 0
  srWelBit        : Nat := 1
  fifoDepth       : Nat := 32
  fifoThreshold   : Nat := 1
  initPrescaler      : Nat := 0
  initSampleShift    : Nat := 0
  initAddressingMode : Nat := 0
  initFlashSize      : Nat := 0
  initCsHold         : Nat := 0
  initClockMode      : Nat := 0
deriving DecidableEq, Repr, Inhabited

/-- The parameter record of rule R8, with the source's default where it gives one. -/
structure Cfg extends OpenParams where
  pageSize       : Nat := 256
  subsectorSize  : Nat := 4096
  block32Size    : Nat := 32768
  sectorSize     : Nat := 65536
  capacity       : Nat := 8388608
  addrBits       : Nat := 24
  abiAddrMask    : Word := 0x0FFFFFFF
  maxWaitSubsectorMs : Nat := 800
  maxWaitSectorMs    : Nat := 3000
  maxWaitBulkMs      : Nat := 250000
  busWaitTicks     : Word := 1000
  welRetry         : Word := 100000
  resetWaitTicks   : Word := 1000
  programWaitTicks : Word := 1000
  tickUs         : Nat := 10
  ticksPerMs     : Nat := 100
deriving DecidableEq, Repr, Inhabited

/-- A power of two, at least 1 (rule R9). -/
def isPowerOfTwo (n : Nat) : Bool := n != 0 && n == 2 ^ Nat.log2 n

/-- The eleven flash opcodes (rules R8, R96). -/
def Cfg.opcodes (c : Cfg) : List Byte :=
  [c.opReadStatus, c.opWriteEnable, c.opWriteDisable, c.opResetEnable, c.opResetMemory, c.opQuadRead,
   c.opQuadProgram, c.opErase4K, c.opErase32K, c.opErase64K, c.opBulkErase]

/-- The well-formedness of a parameter record (rule R9). It is a premise of statements (U12: the model states nothing
of an ill-formed record), never a run-time check. -/
def Cfg.wf (c : Cfg) : Bool :=
  isPowerOfTwo c.pageSize && isPowerOfTwo c.subsectorSize && isPowerOfTwo c.block32Size && isPowerOfTwo c.sectorSize
  && decide (c.pageSize ≤ c.subsectorSize) && decide (c.subsectorSize ≤ c.block32Size)
  && decide (c.block32Size ≤ c.sectorSize) && decide (c.sectorSize ≤ c.capacity)
  && decide (c.capacity ≤ 2 ^ c.addrBits)
  && decide c.opcodes.Nodup
  && (c.progAddrLines != .absent)
  && (c.srBusyBit != c.srWelBit) && decide (c.srBusyBit < 8) && decide (c.srWelBit < 8)
  && decide (c.maxWaitSubsectorMs * c.ticksPerMs < 2 ^ 32) && decide (c.maxWaitSectorMs * c.ticksPerMs < 2 ^ 32)
  && decide (c.maxWaitBulkMs * c.ticksPerMs < 2 ^ 32)
  && decide (1 ≤ c.fifoThreshold) && decide (c.fifoThreshold ≤ c.fifoDepth)
  && decide (c.abiAddrMask.toNat + c.subsectorSize < 2 ^ 32)

/-- The reference record of rule R8: every default of the source, over the given open parameters. -/
def Cfg.reference (p : OpenParams) : Cfg := { toOpenParams := p }

/-- An implementation: open parameters that make the reference record well formed. -/
structure Implementation where
  params : OpenParams := { }
  params_wf : (Cfg.reference params).wf = true := by decide
deriving Inhabited

/-- The kinds of device a type tag names: rule R186 settles that the tag says NOR flash. -/
inductive DeviceType where
  | norFlash
deriving DecidableEq, Repr, Inhabited

/-- The Device Descriptor Export record (rule R186): data for the host tool, which QSEQ does not read. `typeCode` is the
number that stands for the type tag, and `terminator` the numbers that end the list of pairs. -/
structure DescriptorExport where
  name        : String
  typeTag     : DeviceType
  typeCode    : Nat
  baseAddress : Word
  totalSize   : Nat
  pageSize    : Nat
  eraseFill   : Byte
  sectors     : List (Nat × Nat)
  terminator  : List Nat
deriving DecidableEq, Repr

namespace Config

/-- The implementation this machine is: its open parameters are not chosen (DESIGN CHOICE, log entry 2). -/
opaque implementation : Implementation

/-- The environment's answer at SEQ step `n` (log entry 5). -/
opaque freeDraw : Nat → Draw

/-- The `n`-th free byte: a byte a busy device sends (U9), a byte programmed over a byte that is not 0xFF (U7), a byte
of an abandoned operation (U8) (log entries 6, 7, 8). -/
opaque freeByte : Nat → Byte

/-- The address field of a transaction without an address phase, which the spec gives no value (rules R92, R94): one for
each opcode (DESIGN CHOICE, log entry 37). -/
opaque unusedAddr : Byte → Addr24

/-- What `bri.disable()` leaves of the controller (rule R220, U2), at the `n`-th free value (log entry 9). -/
opaque freeBusInit : Nat → BusInit
opaque freeTxn : Nat → Txn
opaque freeFlags : Nat → FlagSet
opaque freeQueue : Nat → List Byte
opaque freeCount : Nat → Nat

/-- The fields of the Device Descriptor Export that the source does not settle (rule R186, N5; log entry 10). -/
opaque exportName : String
opaque exportTypeCode : Nat
opaque exportBaseAddress : Word
opaque exportSectors : List (Nat × Nat)
opaque exportTerminator : List Nat

/-- The bytes of an export record: its field widths and offsets are not in the source (rule R186, N5; log entry 10). -/
opaque exportLayout : DescriptorExport → List Byte

end Config

/-- The Device Descriptor Export of a machine with parameters `c` (rule R186). -/
def Cfg.descriptorExport (c : Cfg) : DescriptorExport :=
  { name := Config.exportName, typeTag := .norFlash, typeCode := Config.exportTypeCode
    baseAddress := Config.exportBaseAddress, totalSize := c.capacity, pageSize := c.pageSize, eraseFill := 0xFF
    sectors := Config.exportSectors, terminator := Config.exportTerminator }

/-- The export as the host tool parses it, byte for byte (rule R186). -/
def Cfg.exportBytes (c : Cfg) : List Byte := Config.exportLayout c.descriptorExport

end Sys2Proof
end

