-- ==== Sys2Proof/WellFormed.lean ====
section
/-! DEFINITION. Which bus transactions and which instructions are well formed (rules R92, R66). -/

namespace Sys2Proof

/-- A well-formed bus transaction (rule R92): no data phase, no data lines and length 0 go together, and the address
width is 24 exactly when there is an address phase, else 0. -/
def Txn.wf (t : Txn) : Bool :=
  ((t.direction == .none) == (t.dataLines == .absent)) && ((t.direction == .none) == (t.length == 0))
  && (t.addrWidthBits == if t.addrLines == .absent then 0 else 24)

/-- A well-formed instruction, under parameters `c`: a read frame moves at least one byte, a program frame between one
byte and a page, its length a 32-bit number (rule R66). Every other operand value is legal (rules R91, R97, R100). -/
def Instr.wf (c : Cfg) : Instr → Bool
  | .qread _ n => n != 0
  | .qpp _ d => (d != []) && decide (d.length ≤ c.pageSize) && decide (d.length < 2 ^ 32)
  | .readStatus | .waitNotBusy _ | .sendCommand _ _ | .writeEnable | .resetMemory | .read _ _ | .write _ _
  | .erase _ _ | .chipErase | .initBus | .deinitBus | .abiInitialize | .abiProgram _ _ | .abiEraseRange _ _
  | .abiVerify | .rdsr | .wren | .wrdi | .rsten | .rst | .se4k _ | .be32k _ | .be64k _ | .ce => true

end Sys2Proof
end

