-- ==== Sys2Proof/Decode.lean ====
section
/-! DEFINITION. The decoders and the encoders of the two formats: host commands (HC, rules R90, R91, R95, R97, R99) and
frames (BT, rules R92 to R96, R100). A frame is decoded by the device with the opcodes of its parameter record, since
the source gives no opcode a value (rule R96, D17). -/

namespace Sys2Proof

/-- Why a word or a frame is no instruction. -/
inductive DecodeError where
  /-- `CMD_OP` is not in the table of rule R95 (rule R99). -/
  | illegalCommand (op : Byte)
  /-- The frame's opcode is none of the eleven (rule R207, U5). -/
  | unknownFlashOpcode (op : Byte)
  /-- One of the eleven opcodes with a shape that is not its own (U5). -/
  | wrongFrameShape (op : Byte)
deriving DecidableEq, Repr

/-! ### Format HC -/

/-- `CMD_OP`, bits 7..0 of the host word (rule R91). -/
def hostOp (w : HostWord) : Byte := w.extractLsb' 0 8

/-- `CMD_ADDR`, bits 39..8 (rule R91). -/
def hostAddr (w : HostWord) : Word := w.extractLsb' 8 32

/-- `CMD_LEN`, bits 71..40 (rule R91). -/
def hostLen (w : HostWord) : Word := w.extractLsb' 40 32

/-- `CMD_ARG`, bits 103..72 (rule R91). -/
def hostArg (w : HostWord) : Word := w.extractLsb' 72 32

/-- The host word `CMD_ARG :: CMD_LEN :: CMD_ADDR :: CMD_OP` (rule R90). -/
def hostWord (op : Byte) (addr len arg : Word) : HostWord := arg ++ len ++ addr ++ op

/-- The block-size variant of `CMD_ARG[1:0]`; the upper bits are ignored (rule R97). -/
def decodeBlockSize (arg : Word) : BlockSize :=
  match (arg.extractLsb' 0 2).toNat with
  | 0 => .b4K
  | 1 => .b32K
  | 2 => .b64K
  | _ => .all

/-- The encoding of the block-size variant (rule R97). -/
def encodeBlockSize : BlockSize → Word
  | .b4K => 0
  | .b32K => 1
  | .b64K => 2
  | .all => 3

/-- The operands of SEND_COMMAND: the opcode in `arg[7:0]`, the address attached iff `arg[8]` (rules R91, R131). -/
def decodeSendCommand (addr arg : Word) : Instr :=
  .sendCommand (arg.extractLsb' 0 8) (if arg.getLsbD 8 then some addr else none)

/-- The operation a host word asks for (rules R91, R95), or the illegal code (rule R99). -/
def decodeHost (w : HostWord) : Except DecodeError Instr :=
  match (hostOp w).toNat with
  | 0x01 => .ok .readStatus
  | 0x02 => .ok (.waitNotBusy (hostArg w))
  | 0x03 => .ok (decodeSendCommand (hostAddr w) (hostArg w))
  | 0x04 => .ok .writeEnable
  | 0x05 => .ok .resetMemory
  | 0x06 => .ok (.read (hostAddr w) (hostLen w))
  | 0x07 => .ok (.write (hostAddr w) (hostLen w))
  | 0x08 => .ok (.erase (hostAddr w) (decodeBlockSize (hostArg w)))
  | 0x09 => .ok .chipErase
  | 0x0A => .ok .initBus
  | 0x0B => .ok .deinitBus
  | 0x10 => .ok .abiInitialize
  | 0x11 => .ok (.abiProgram (hostAddr w) (hostLen w))
  | 0x12 => .ok (.abiEraseRange (hostAddr w) (hostArg w))
  | 0x13 => .ok .abiVerify
  | _ => .error (.illegalCommand (hostOp w))

/-- The `CMD_ARG` of a SEND_COMMAND (rule R91). -/
def encodeSendArg (op : Byte) (hasAddr : Bool) : Word :=
  (if hasAddr then (0x100 : Word) else 0) ||| op.setWidth 32

/-- The host word of a host operation, every ignored field 0 (rules R90, R91, R95); none for a flash command. -/
def encodeHost : Instr → Option HostWord
  | .readStatus => some (hostWord 0x01 0 0 0)
  | .waitNotBusy n => some (hostWord 0x02 0 0 n)
  | .sendCommand op none => some (hostWord 0x03 0 0 (encodeSendArg op false))
  | .sendCommand op (some a) => some (hostWord 0x03 a 0 (encodeSendArg op true))
  | .writeEnable => some (hostWord 0x04 0 0 0)
  | .resetMemory => some (hostWord 0x05 0 0 0)
  | .read a n => some (hostWord 0x06 a n 0)
  | .write a n => some (hostWord 0x07 a n 0)
  | .erase a v => some (hostWord 0x08 a 0 (encodeBlockSize v))
  | .chipErase => some (hostWord 0x09 0 0 0)
  | .initBus => some (hostWord 0x0A 0 0 0)
  | .deinitBus => some (hostWord 0x0B 0 0 0)
  | .abiInitialize => some (hostWord 0x10 0 0 0)
  | .abiProgram a n => some (hostWord 0x11 a n 0)
  | .abiEraseRange s e => some (hostWord 0x12 s 0 e)
  | .abiVerify => some (hostWord 0x13 0 0 0)
  | .rdsr | .wren | .wrdi | .rsten | .rst | .qread _ _ | .qpp _ _ | .se4k _ | .be32k _ | .be64k _ | .ce => none

/-! ### Format BT: the five transaction shapes of rule R94 -/

/-- The status read (rule R94, `F_RDSR`). Its address field is free (DESIGN CHOICE, log entry 37). -/
def txnRdsr (c : Cfg) : Txn :=
  { opcode := c.opReadStatus, addr := Config.unusedAddr c.opReadStatus, addrLines := .absent, addrWidthBits := 0
    dataLines := .one, dummyCycles := 0, direction := .read, length := 1 }

/-- A single-line, no-data command (rule R94, `F_CMD`). Its address field is free (DESIGN CHOICE, log entry 37). -/
def txnCmd (op : Byte) : Txn :=
  { opcode := op, addr := Config.unusedAddr op, addrLines := .absent, addrWidthBits := 0, dataLines := .absent
    dummyCycles := 0, direction := .none, length := 0 }

/-- A command with a single-line address (rule R94, `F_CMDA`). -/
def txnCmda (op : Byte) (a : Addr24) : Txn :=
  { opcode := op, addr := a, addrLines := .one, addrWidthBits := 24, dataLines := .absent, dummyCycles := 0
    direction := .none, length := 0 }

/-- The quad fast read (rule R94, `F_QREAD`). -/
def txnQread (c : Cfg) (a : Addr24) (n : Word) : Txn :=
  { opcode := c.opQuadRead, addr := a, addrLines := .four, addrWidthBits := 24, dataLines := .four
    dummyCycles := c.dummyQuadRead, direction := .read, length := n }

/-- The quad page program (rule R94, `F_QPP`); its address line count is the parameter `PROG_ADDR_LINES` (D16). -/
def txnQpp (c : Cfg) (a : Addr24) (n : Word) : Txn :=
  { opcode := c.opQuadProgram, addr := a, addrLines := c.progAddrLines, addrWidthBits := 24, dataLines := .four
    dummyCycles := 0, direction := .write, length := n }

/-- The data phase of the frame of a transaction; `bytes` are those SEQ supplied for a write (rule R93). -/
def dataPhaseOf (t : Txn) (bytes : List Byte) : DataPhase :=
  match t.direction with
  | .none => .none
  | .read => .read t.length
  | .write => .write bytes

/-- The frame of an issued transaction (rule R93): the address is there iff there are address lines (rule R92). -/
def frameOf (t : Txn) (bytes : List Byte) : Frame :=
  { opcode := t.opcode, addr := if t.addrLines = .absent then none else some t.addr, addrLines := t.addrLines
    dummyCycles := t.dummyCycles, dataLines := t.dataLines, data := dataPhaseOf t bytes }

/-- The frame of a flash command (rules R94, R96); none for a host operation. -/
def encodeFrame (c : Cfg) : Instr → Option Frame
  | .rdsr => some (frameOf (txnRdsr c) [])
  | .wren => some (frameOf (txnCmd c.opWriteEnable) [])
  | .wrdi => some (frameOf (txnCmd c.opWriteDisable) [])
  | .rsten => some (frameOf (txnCmd c.opResetEnable) [])
  | .rst => some (frameOf (txnCmd c.opResetMemory) [])
  | .qread a n => some (frameOf (txnQread c a n) [])
  | .qpp a d => some (frameOf (txnQpp c a (BitVec.ofNat 32 d.length)) d)
  | .se4k a => some (frameOf (txnCmda c.opErase4K a) [])
  | .be32k a => some (frameOf (txnCmda c.opErase32K a) [])
  | .be64k a => some (frameOf (txnCmda c.opErase64K a) [])
  | .ce => some (frameOf (txnCmd c.opBulkErase) [])
  | .readStatus | .waitNotBusy _ | .sendCommand _ _ | .writeEnable | .resetMemory | .read _ _ | .write _ _
  | .erase _ _ | .chipErase | .initBus | .deinitBus | .abiInitialize | .abiProgram _ _ | .abiEraseRange _ _
  | .abiVerify => none

/-! ### The device's frame decoder -/

/-- The shape `F_CMD`: the instruction byte and nothing else (rule R94). -/
def shapeCmd (f : Frame) : Option Unit :=
  match f.addr, f.addrLines, f.dataLines, f.data with
  | none, .absent, .absent, .none => if f.dummyCycles = 0 then some () else none
  | _, _, _, _ => none

/-- The shape `F_CMDA`: a single-line address and no data (rule R94). -/
def shapeCmda (f : Frame) : Option Addr24 :=
  match f.addr, f.addrLines, f.dataLines, f.data with
  | some a, .one, .absent, .none => if f.dummyCycles = 0 then some a else none
  | _, _, _, _ => none

/-- The shape `F_RDSR`: one data byte to read on one line (rule R94). -/
def shapeRdsr (f : Frame) : Option Unit :=
  match f.addr, f.addrLines, f.dataLines, f.data with
  | none, .absent, .one, .read n => if f.dummyCycles = 0 ∧ n = 1 then some () else none
  | _, _, _, _ => none

/-- The shape `F_QREAD`: a quad address, the configured dummy cycles, data to read on four lines (rule R94). -/
def shapeQread (c : Cfg) (f : Frame) : Option (Addr24 × Word) :=
  match f.addr, f.addrLines, f.dataLines, f.data with
  | some a, .four, .four, .read n => if f.dummyCycles = c.dummyQuadRead ∧ n ≠ 0 then some (a, n) else none
  | _, _, _, _ => none

/-- The shape `F_QPP`: an address on one or four lines (D16: the device accepts either), data on four lines. -/
def shapeQpp (f : Frame) : Option (Addr24 × List Byte) :=
  match f.addr, f.addrLines, f.dataLines, f.data with
  | some _, .absent, _, _ => none
  | some a, _, .four, .write d => if f.dummyCycles = 0 ∧ d ≠ [] then some (a, d) else none
  | _, _, _, _ => none

/-- The instruction read from a frame's shape, or the wrong-shape error. -/
def shaped {α : Type} (op : Byte) (shape : Option α) (build : α → Instr) : Except DecodeError Instr :=
  match shape with
  | some x => .ok (build x)
  | none => .error (.wrongFrameShape op)

/-- The flash command a frame is, for a device with the opcodes of `c` (rule R96). An opcode that is none of the eleven
is refused (rule R207), and so is one of the eleven with another command's shape (U5). -/
def decodeFrame (c : Cfg) (f : Frame) : Except DecodeError Instr :=
  if f.opcode = c.opReadStatus then shaped f.opcode (shapeRdsr f) (fun _ => .rdsr)
  else if f.opcode = c.opWriteEnable then shaped f.opcode (shapeCmd f) (fun _ => .wren)
  else if f.opcode = c.opWriteDisable then shaped f.opcode (shapeCmd f) (fun _ => .wrdi)
  else if f.opcode = c.opResetEnable then shaped f.opcode (shapeCmd f) (fun _ => .rsten)
  else if f.opcode = c.opResetMemory then shaped f.opcode (shapeCmd f) (fun _ => .rst)
  else if f.opcode = c.opQuadRead then shaped f.opcode (shapeQread c f) (fun x => .qread x.1 x.2)
  else if f.opcode = c.opQuadProgram then shaped f.opcode (shapeQpp f) (fun x => .qpp x.1 x.2)
  else if f.opcode = c.opErase4K then shaped f.opcode (shapeCmda f) .se4k
  else if f.opcode = c.opErase32K then shaped f.opcode (shapeCmda f) .be32k
  else if f.opcode = c.opErase64K then shaped f.opcode (shapeCmda f) .be64k
  else if f.opcode = c.opBulkErase then shaped f.opcode (shapeCmd f) (fun _ => .ce)
  else .error (.unknownFlashOpcode f.opcode)

/-! ### Both formats -/

/-- The encoding of an instruction: a host word, or a frame. -/
inductive Encoded where
  | host (w : HostWord)
  | bus (f : Frame)
deriving DecidableEq, Repr

/-- The encoding of an instruction under parameters `c` (rules R90 to R97). -/
def encode (c : Cfg) (i : Instr) : Option Encoded :=
  match encodeHost i with
  | some w => some (.host w)
  | none => (encodeFrame c i).map .bus

/-- The instruction of an encoding under parameters `c`. -/
def decode (c : Cfg) : Encoded → Except DecodeError Instr
  | .host w => decodeHost w
  | .bus f => decodeFrame c f

/-- The instruction the decoder reads from a word of the opcode table. Every word is read as a host command of 104 bits,
with the bits the table does not give zero: a row of format BT has no numeric word, since its only bits are a parameter
with no value in the source (rule R96, D17; log entry 11). -/
def decodeTableWord (nbits w : Nat) : Option Instr :=
  if nbits ≤ 104 then (decodeHost (BitVec.ofNat 104 w)).toOption else none

end Sys2Proof
end

