-- ==== Sys2Proof/Machine/State.lean ====
section
/-! DEFINITION. The state of QSEQ and its environment (rule R20: the product of SEQ, the parameters, the controller BRI,
the device DEV and HOST), its reset value, and the reasons a step can stop. -/

namespace Sys2Proof.Machine

/-! ### Memory -/

/-- A byte memory: the pairs (address, byte) with addresses strictly rising and no byte equal to `Mem.fill`. -/
abbrev Mem := List Host.Cell

/-- What an unlisted address reads as: 0xFF, an erased byte (DESIGN CHOICE, unsafe, log entry 12). -/
def Mem.fill : Byte := 0xFF

/-- The addresses of a memory rise strictly, all of them at least `lo`, and no byte is `Mem.fill`. -/
def Mem.wfFrom : Nat → Mem → Bool
  | _, [] => true
  | lo, (a, b) :: m => decide (lo ≤ a) && (b != Mem.fill) && Mem.wfFrom (a + 1) m

/-- The canonical form of a memory. -/
def Mem.wf (m : Mem) : Bool := Mem.wfFrom 0 m

/-! ### SEQ -/

/-- The procedures of QSEQ (rule R27). -/
inductive Proc where
  | readStatus | waitNotBusy | sendCommand | writeEnable | resetMemory | read | write | erase | chipErase | initBus
  | deinitBus | abiInitialize | abiProgram | abiEraseRange | abiVerify | issue | waitFlag | cleanup
deriving DecidableEq, Repr, Inhabited

/-- An activation record: a procedure and the numbered line of its pseudocode (rule R27). -/
structure Activation where
  proc  : Proc
  phase : Nat
deriving DecidableEq, Repr, Inhabited

/-- The FSM state that stands for a program counter: the stack of activation records, innermost FIRST; the empty
stack is `IDLE` (rule R27). -/
abbrev Pc := List Activation

/-- The causes of a failure (rule R231). -/
inductive Cause where
  | none | busTimeout | deviceTimeout | writeEnableFailed | notInitialised | illegalCommand
deriving DecidableEq, Repr, Inhabited

/-- The 3-bit value of a cause in `RES_CAUSE` (rule R231). -/
def Cause.code : Cause → BitVec 3
  | .none => 0
  | .busTimeout => 1
  | .deviceTimeout => 2
  | .writeEnableFailed => 3
  | .notInitialised => 4
  | .illegalCommand => 5

/-- The registers and flags of SEQ: working registers (rule R21), host-visible registers (rule R24), `INITED` (rule
R26) and the FSM state (rule R27). -/
structure Seq where
  curAddr : Word
  curSize : Word
  endAddr : Word
  bufOff  : Word
  idx     : Word
  tmoBus  : Word
  tmoDev  : Word
  srSnap  : Byte
  erAddr  : Word
  erEnd   : Word
  txn     : Txn
  cmdOp   : Byte
  cmdAddr : Word
  cmdLen  : Word
  cmdArg  : Word
  rdy     : Bool
  done    : Bool
  inited  : Bool
  resCode  : Byte
  resCause : BitVec 3
  resValue : DWord
  pc      : Pc
deriving DecidableEq, Repr

/-! ### The environment: controller, device, host -/

/-- The controller behind the Bus Register Interface (rules R33, R212). `rem` counts bytes; `out` holds the bytes of a
write frame already moved to the bus, oldest first; `fifo` has its head first. -/
structure Bri where
  en   : Bool
  init : BusInit
  cfg  : Txn
  busy : Bool
  tc   : Bool
  fifo : List Byte
  rem  : Nat
  out  : List Byte
deriving DecidableEq, Repr

/-- The device's internal operation in progress (rule R190). -/
inductive DevOp where
  | none
  | program (addr : Nat) (bytes : List Byte)
  | erase (lo hi : Nat)
  | reset
deriving DecidableEq, Repr

/-- What the device answers in the data phase of the read frame on the bus: the MODEL's own record of rules R191 and
R196 between the frame's header and its bytes (log entry 19). `ignored`: the frame came while the device was busy. -/
inductive Answer where
  | none
  | status
  | array (next : Nat)
  | ignored
deriving DecidableEq, Repr

/-- The flash device (rule R190). `other` holds the status byte's six untested bits; its two bits at the positions of
BUSY and the latch are not read (log entry 33). -/
structure Dev where
  mem    : Mem
  busy   : Bool
  wel    : Bool
  other  : Byte
  armed  : Bool
  op     : DevOp
  answer : Answer
deriving DecidableEq, Repr

/-- What the host does next when SEQ is ready: presents a command word on the command port (rules R24, R25), or stores
a byte in its buffer, which belongs to it between operations (rule R79). -/
inductive HostAct where
  | command (w : HostWord)
  | store (off : Word) (b : Byte)
deriving DecidableEq, Repr

/-- The host: its buffer `HBUF` (rules R34, R79), what it will do next, oldest first (a host program, rule R102), and
the SEQ step at which it resets SEQ, if it will (rule R260; log entry 23). -/
structure HostSide where
  hbuf    : Mem
  script  : List HostAct
  resetAt : Option Nat
deriving DecidableEq, Repr

/-- The environment model (rule R211): ENV-ANY, where flags and bytes are free draws, or ENV-REF, the controller of
rules R212 to R221 joined to the device of rules R190 to R207. -/
inductive EnvModel where
  | any | ref
deriving DecidableEq, Repr, Inhabited

/-- One SEQ step on the Bus Register Interface (rule R11), with its answer where it has one. -/
inductive BusCall where
  | init (fields : BusInit)
  | enable
  | disable
  | configure (t : Txn)
  | trigger
  | flags (answer : FlagSet)
  | clearTc
  | clearAll
  | readByte (answer : Byte)
  | writeByte (b : Byte)
  | tick
deriving DecidableEq, Repr

/-- One SEQ step as recorded: the FSM state in which it was taken and what it did. -/
structure TraceEntry where
  pc   : Pc
  call : BusCall
deriving DecidableEq, Repr

/-- The MODEL's own fields (log entries 1, 5, 27): which environment model is attached; the answers the environment
will give at the next SEQ steps, the first first (when there is none left, `Config.freeDraw` answers); the number of
SEQ steps taken on the interface so far; the number of free values used so far; and the record of SEQ's steps on the
interface, newest first. -/
structure Env where
  model  : EnvModel
  inputs : List Draw
  now    : Nat
  frees  : Nat
  trace  : List TraceEntry
deriving DecidableEq, Repr

/-- The whole state (rule R20). `cfg` is the parameter record a model takes as an argument (rule R8): it stands here
because a step has no other argument, and no operation writes it (rule R31; log entry 2). -/
structure State where
  cfg  : Cfg
  seq  : Seq
  bri  : Bri
  dev  : Dev
  host : HostSide
  env  : Env
deriving DecidableEq, Repr

/-! ### Why a step stops -/

/-- Faults: accesses to addresses that do not exist. -/
inductive Fault where
  /-- A program or erase frame, accepted by the device, names a byte outside the array `0 .. CAPACITY - 1` (rules R69,
  R190, U3). Raised by `execQpp` and the four erase meanings. Safe: the model stops where the spec gives no meaning. -/
  | noFlashByte
deriving DecidableEq, Repr

/-- Refusals: what the spec says a model states nothing of. -/
inductive Refusal where
  /-- An instruction with no meaning yet, raised by `exec` only. Safe. -/
  | notModelled (mnemonic : String)
  /-- The device received a frame whose opcode is none of the eleven (rule R207, U5). Raised by `deliver`. Safe. -/
  | unknownFlashOpcode
  /-- The device received one of the eleven opcodes with another command's shape, or a data frame of no bytes (U5).
  Raised by `deliver`, `execQread` and `execQpp`. Safe. -/
  | wrongFrameShape
  /-- Under ENV-REF: `bri.configure` on a busy controller (rule R213, U4). Raised by `briConfigure`. Safe. -/
  | controllerBusy
  /-- Under ENV-REF: a primitive other than init, enable and disable on a disabled controller (U4). Raised by the
  primitives. Safe. -/
  | controllerDisabled
  /-- Under ENV-REF: `bri.read_byte` on an empty FIFO (rule R217, U4). Raised by `briReadByte`. Safe. -/
  | fifoEmpty
  /-- Under ENV-REF: `bri.write_byte` on a full FIFO (rule R217, U4). Raised by `briWriteByte`. Safe. -/
  | fifoFull
  /-- A step is asked for while RDY is 0: the command port accepts nothing (rule R25, U14). No step of the model ends
  in such a state. Raised by `step`. Safe. -/
  | notReady
  /-- A chunk or block loop made no progress, which only an ill-formed parameter record allows (rule R9, U12). Raised by
  `writeChunks` and `eraseBlocks`. Safe. -/
  | illFormedCfg
deriving DecidableEq, Repr

/-! ### Reset -/

/-- The transaction register at reset: all zero (rule R37 gives no value; log entry 4). -/
def Txn.zero : Txn :=
  { opcode := 0, addr := 0, addrLines := .absent, addrWidthBits := 0, dataLines := .absent, dummyCycles := 0
    direction := .none, length := 0 }

/-- SEQ after its reset (rule R37); the registers rule R37 leaves unspecified are zero (DESIGN CHOICE, log entry 4). -/
def Seq.reset : Seq :=
  { curAddr := 0, curSize := 0, endAddr := 0, bufOff := 0, idx := 0, tmoBus := 0, tmoDev := 0, srSnap := 0
    erAddr := 0, erEnd := 0, txn := Txn.zero, cmdOp := 0, cmdAddr := 0, cmdLen := 0, cmdArg := 0
    rdy := true, done := false, inited := false, resCode := 0, resCause := 0, resValue := 0, pc := [] }

/-- The controller at power-up: disabled and empty (rule R38 gives no value; DESIGN CHOICE, log entry 13). -/
def Bri.powerUp : Bri :=
  { en := false
    init := { fifoThreshold := 0, prescaler := 0, sampleShift := 0, addressingMode := 0, flashSize := 0, csHold := 0
              clockMode := 0 }
    cfg := Txn.zero, busy := false, tc := false, fifo := [], rem := 0, out := [] }

/-- The device at power-up: idle, latch clear, array with nothing listed (rule R38 gives no value; log entry 13). -/
def Dev.powerUp : Dev :=
  { mem := [], busy := false, wel := false, other := 0, armed := false, op := .none, answer := .none }

/-- The machine right after reset (rules R37, R38): SEQ idle and ready, nothing presented by the host, nothing written
to any memory, the environment unconstrained (ENV-ANY; log entry 1). -/
def State.reset : State :=
  { cfg := Cfg.reference Config.implementation.params
    seq := Seq.reset
    bri := Bri.powerUp
    dev := Dev.powerUp
    host := { hbuf := [], script := [], resetAt := none }
    env := { model := .any, inputs := [], now := 0, frees := 0, trace := [] } }

end Sys2Proof.Machine
end

