-- ==== Sys2Proof/Machine/Ops.lean ====
section
/-! DEFINITION. The named operations over memory, registers, the FSM stack and the model's own fields; the result of a
procedure (rule R11); and the delivery of an operation's outcome (rules R25, R235), the one thing on this hardware
that takes the place of an exception entry (rules R230, R237: there is no handler and no return from one). -/

namespace Sys2Proof.Machine

/-! ### Memory -/

/-- The byte at an address: the listed one, else `Mem.fill`. -/
def memRead : Mem → Nat → Byte
  | [], _ => Mem.fill
  | (k, b) :: m, a => if k = a then b else memRead m a

/-- Stores a byte, keeping the canonical form: writing `Mem.fill` unlists the address. -/
def memWrite : Mem → Nat → Byte → Mem
  | [], a, b => if b = Mem.fill then [] else [(a, b)]
  | (k, c) :: m, a, b =>
    if a < k then (if b = Mem.fill then (k, c) :: m else (a, b) :: (k, c) :: m)
    else if a = k then (if b = Mem.fill then m else (a, b) :: m)
    else (k, c) :: memWrite m a b

/-- Erases `lo .. hi - 1` to 0xFF (rule R202), which is `Mem.fill`: those addresses are unlisted. -/
def memErase (m : Mem) (lo hi : Nat) : Mem := m.filter fun c => decide (c.1 < lo) || decide (hi ≤ c.1)

/-- Programs bytes one after another (rule R197): a byte that is 0xFF takes the new value, any other takes a free value
(U7, log entry 7), the `k`-th, `k+1`-st, … -/
def memProgram : Mem → List (Nat × Byte) → Nat → Mem
  | m, [], _ => m
  | m, (a, b) :: ws, k => memProgram (memWrite m a (if memRead m a = 0xFF then b else Config.freeByte k)) ws (k + 1)

/-- Gives every listed address a free value (U8): the bytes of an abandoned operation (rule R195, log entry 8). -/
def memRelease : Mem → List Nat → Nat → Mem
  | m, [], _ => m
  | m, a :: as, k => memRelease (memWrite m a (Config.freeByte k)) as (k + 1)

/-! ### The five parts of the state -/

def State.withSeq (s : State) (q : Seq) : State := { s with seq := q }
def State.withBri (s : State) (b : Bri) : State := { s with bri := b }
def State.withDev (s : State) (d : Dev) : State := { s with dev := d }
def State.withHost (s : State) (h : HostSide) : State := { s with host := h }
def State.withEnv (s : State) (e : Env) : State := { s with env := e }

/-! ### Registers of SEQ -/

def setTmoBus (n : Word) (s : State) : State := s.withSeq { s.seq with tmoBus := n }
def setTmoDev (n : Word) (s : State) : State := s.withSeq { s.seq with tmoDev := n }
def setSrSnap (b : Byte) (s : State) : State := s.withSeq { s.seq with srSnap := b }
def setTxn (t : Txn) (s : State) : State := s.withSeq { s.seq with txn := t }
def setIdx (n : Word) (s : State) : State := s.withSeq { s.seq with idx := n }
def setErAddr (n : Word) (s : State) : State := s.withSeq { s.seq with erAddr := n }
def setErEnd (n : Word) (s : State) : State := s.withSeq { s.seq with erEnd := n }
def setInited (b : Bool) (s : State) : State := s.withSeq { s.seq with inited := b }

/-- One loop turn of a bus-flag wait: `x[TMO_BUS] <- x[TMO_BUS] - 1` (rules R12, R218). -/
def countTmoBus (s : State) : State := setTmoBus (s.seq.tmoBus - 1) s

/-- One loop turn of a device-status wait: `x[TMO_DEV] <- x[TMO_DEV] - 1` (rules R12, R122, R132). -/
def countTmoDev (s : State) : State := setTmoDev (s.seq.tmoDev - 1) s

/-- The four registers of the program loop (rule R151). -/
def setProgramLoop (cur size last off : Word) (s : State) : State :=
  s.withSeq { s.seq with curAddr := cur, curSize := size, endAddr := last, bufOff := off }

/-! ### The host buffer -/

/-- `MemRead(HBUF, off, 1)` (rules R11, R79). -/
def hbufRead (s : State) (off : Word) : Byte := memRead s.host.hbuf off.toNat

/-- `MemWrite(HBUF, off, 1, b)` (rules R11, R79). -/
def hbufWrite (off : Word) (b : Byte) (s : State) : State :=
  s.withHost { s.host with hbuf := memWrite s.host.hbuf off.toNat b }

/-! ### The FSM stack (rules R27, R28) -/

/-- The innermost procedure is at its line `ph`. -/
def setPhase (ph : Nat) (s : State) : State :=
  s.withSeq { s.seq with pc := match s.seq.pc with
    | [] => []
    | a :: rest => { a with phase := ph } :: rest }

/-- `call` pushes a record (rule R27). -/
def pushProc (p : Proc) (s : State) : State := s.withSeq { s.seq with pc := { proc := p, phase := 0 } :: s.seq.pc }

/-- `return` and `raise` pop one (rule R27). -/
def popProc (s : State) : State := s.withSeq { s.seq with pc := s.seq.pc.tail }

/-- The first phase of a host operation (rule R25): its record is the only one. -/
def enterProc (p : Proc) (s : State) : State := s.withSeq { s.seq with pc := [{ proc := p, phase := 0 }] }

/-! ### The result of a procedure -/

/-- How a procedure of SEQ ends (rule R11): `Ok(value)`, `Fail(code, cause)`; or it does not end, because the host reset
SEQ (rule R260), because the device was asked for a byte it has not, or because the spec refuses to say. -/
inductive Res (α : Type) where
  | ok (value : α) (s : State)
  | fail (code : Byte) (cause : Cause) (s : State)
  | reset (s : State)
  | fault (f : Fault)
  | refused (r : Refusal)

/-- Goes on after `Ok`; every other end is the end. -/
def Res.bind {α β : Type} (r : Res α) (k : α → State → Res β) : Res β :=
  match r with
  | .ok a s => k a s
  | .fail c e s => .fail c e s
  | .reset s => .reset s
  | .fault f => .fault f
  | .refused x => .refused x

/-- `if r is Fail: raise Fail(code, r.cause)` (rules R104, R231: a caller replaces the code and keeps the cause). -/
def Res.recode {α : Type} (code : Byte) (r : Res α) : Res α :=
  match r with
  | .fail _ e s => .fail code e s
  | .ok a s => .ok a s
  | .reset s => .reset s
  | .fault f => .fault f
  | .refused x => .refused x

/-- The record of a procedure that returned or raised is popped (rule R27). -/
def Res.popped {α : Type} (r : Res α) : Res α :=
  match r with
  | .ok a s => .ok a (popProc s)
  | .fail c e s => .fail c e (popProc s)
  | .reset s => .reset s
  | .fault f => .fault f
  | .refused x => .refused x

/-- `call p(…)` at line `ph` of the caller (rules R11, R27, R28). -/
def call {α : Type} (ph : Nat) (p : Proc) (s : State) (body : State → Res α) : Res α :=
  (body (pushProc p (setPhase ph s))).popped

/-- The end of a WAIT (rules R12, R218): the condition was met, or the counter reached zero. -/
inductive Waited where
  | met | timeout
deriving DecidableEq, Repr

/-- `if r is Timeout: raise Fail(code, BusTimeout)` (rule R218). -/
def Res.orTimeout (code : Byte) (r : Res Waited) : Res Unit :=
  r.bind fun w s => match w with
    | .met => .ok () s
    | .timeout => .fail code .busTimeout s

/-! ### The model's own fields -/

/-- The environment's answer at this SEQ step: the first of those given, else a free one (log entry 5). -/
def nextDraw (s : State) : Draw := s.env.inputs.headD (Config.freeDraw s.env.now)

/-- One SEQ step more: its answer is used up. -/
def advance (s : State) : State := s.withEnv { s.env with inputs := s.env.inputs.tail, now := s.env.now + 1 }

/-- Records a SEQ step on the interface, with the FSM state in which it is taken. -/
def record (c : BusCall) (s : State) : State :=
  s.withEnv { s.env with trace := { pc := s.seq.pc, call := c } :: s.env.trace }

/-- `n` free values have been used. -/
def useFree (n : Nat) (s : State) : State := s.withEnv { s.env with frees := s.env.frees + n }

/-! ### Completion, refusal and reset -/

/-- The completing step of an operation (rules R25, R235). -/
def complete (code : Byte) (cause : Cause) (value : DWord) (s : State) : State :=
  s.withSeq { s.seq with resCode := code, resCause := cause.code, resValue := value, done := true, rdy := true, pc := [] }

/-- A refused command completes at once with no primitive and no CLEANUP (rules R26, R99, R235). -/
def refuseCommand (code : Byte) (cause : Cause) (s : State) : State := complete code cause 0 s

/-- A reset of SEQ (rules R37, R260): SEQ as after reset, nothing sent, the environment as it is; the host's pulse is
over. -/
def resetSeq (s : State) : State := (s.withSeq Seq.reset).withHost { s.host with resetAt := none }

/-- The accepting step (rule R25): the four command registers are latched, RDY and DONE fall. -/
def acceptCommand (w : HostWord) (s : State) : State :=
  s.withSeq { s.seq with cmdOp := hostOp w, cmdAddr := hostAddr w, cmdLen := hostLen w, cmdArg := hostArg w
                         rdy := false, done := false }

end Sys2Proof.Machine
end

