-- ==== Sys2Proof/Machine/Operands.lean ====
section
/-! DEFINITION. How every operand is formed (rules R98, R105), and which device bytes a flash command names (rules R196,
R197, R202). -/

namespace Sys2Proof.Machine

/-- `trunc_24`: the low 24 bits of an address (rules R11, R98). -/
def trunc24 (a : Word) : Addr24 := a.setWidth 24

/-- `mask(a) = a & ABI_ADDR_MASK` (rules R98, R181). -/
def abiMask (c : Cfg) (a : Word) : Word := a &&& c.abiAddrMask

/-- The ABI erase start: masked, then rounded down to a subsector boundary (rule R98). -/
def abiEraseStart (c : Cfg) (a : Word) : Word := abiMask c a &&& ~~~(BitVec.ofNat 32 c.subsectorSize - 1)

/-- A budget in milliseconds as ticks, in 32 bits (rule R98). -/
def ticksOfMs (c : Cfg) (ms : Nat) : Word := BitVec.ofNat 32 (ms * c.ticksPerMs)

/-- The first chunk of a write: up to the end of the page, clipped to the length (rules R98, R151). -/
def firstChunk (c : Cfg) (addr len : Word) : Word :=
  BitVec.ofNat 32 (min (c.pageSize - addr.toNat % c.pageSize) len.toNat)

/-- A later chunk: a page, clipped to the distance to the end (rules R98, R151). -/
def nextChunk (c : Cfg) (last cur : Word) : Word := BitVec.ofNat 32 (min c.pageSize (last - cur).toNat)

/-- The start of the aligned block of `size` bytes that contains `a` (rule R202; PRESUMED, log entry 18). -/
def blockStart (size : Nat) (a : Addr24) : Nat := a.toNat - a.toNat % size

/-- The addresses a program of `n` bytes at `a` names, in order: past the page's end it wraps to the page's start
(rule R197; PRESUMED, log entry 18). -/
def programTargets (c : Cfg) (a n : Nat) : List Nat :=
  (List.range n).map fun i => (a - a % c.pageSize) + (a % c.pageSize + i) % c.pageSize

/-- The bytes a device operation covers (rules R190, R195). -/
def opTargets (c : Cfg) : DevOp → List Nat
  | .none => []
  | .program a d => programTargets c a d.length
  | .erase lo hi => List.range' lo (hi - lo)
  | .reset => []

/-- The array address a quad read starts at: past the array's end it wraps to 0 (rule R196; PRESUMED, log entry 14). -/
def wrapAddress (c : Cfg) (a : Nat) : Nat := a % c.capacity

end Sys2Proof.Machine
end

