-- ==== Sys2Proof/Machine/Flags.lean ====
section
/-! DEFINITION. Every flag computation: the device's status byte and the two bits SEQ tests in it (rules R29, R30, R190),
the controller's flags (rule R215) and the condition of a flag wait (rule R218). -/

namespace Sys2Proof.Machine

/-- `busy(s) = s[SR_BUSY_BIT]` (rule R30). -/
def statusBusy (c : Cfg) (b : Byte) : Bool := b.getLsbD c.srBusyBit

/-- `wel(s) = s[SR_WEL_BIT]` (rule R30). -/
def statusWel (c : Cfg) (b : Byte) : Bool := b.getLsbD c.srWelBit

/-- A byte with one bit, of value `v`, at position `n`. -/
def statusBit (n : Nat) (v : Bool) : Byte := if v then (1 : Byte) <<< n else 0

/-- `status(DEV)`: BUSY and the latch at their positions, the other bits from `DEV.OTHER` (rule R190). -/
def statusByte (c : Cfg) (d : Dev) : Byte :=
  (d.other &&& ~~~(statusBit c.srBusyBit true ||| statusBit c.srWelBit true))
    ||| statusBit c.srBusyBit d.busy ||| statusBit c.srWelBit d.wel

/-- A frame is in progress, or complete but undrained (rule R215). -/
def frameActive (b : Bri) : Bool := b.busy || (b.cfg.direction == .read && b.fifo != [])

/-- `FT`: on a read the FIFO holds at least the threshold, on a write it has space for it (rule R215). -/
def fifoThresholdFlag (c : Cfg) (b : Bri) : Bool :=
  frameActive b && match b.cfg.direction with
    | .none => false
    | .read => decide (c.fifoThreshold ≤ b.fifo.length)
    | .write => decide (c.fifoThreshold ≤ c.fifoDepth - b.fifo.length)

/-- What `bri.flags()` returns (rule R215). -/
def controllerFlags (c : Cfg) (b : Bri) : FlagSet := { busy := b.busy, tc := b.tc, ft := fifoThresholdFlag c b }

/-- Some flag of the mask is set in the sample. -/
def someFlag (mask sample : FlagSet) : Bool :=
  (mask.busy && sample.busy) || (mask.tc && sample.tc) || (mask.ft && sample.ft)

/-- The condition of `WAIT_FLAG(M, e, N)`: with `e = 1` some flag of `M` is set, with `e = 0` every one is clear
(rule R218). -/
def flagsMet (mask : FlagSet) (e : Bool) (sample : FlagSet) : Bool := someFlag mask sample == e

/-- The masks in use (rule R218). -/
def maskBusy : FlagSet := { busy := true, tc := false, ft := false }
def maskTc : FlagSet := { busy := false, tc := true, ft := false }
def maskFt : FlagSet := { busy := false, tc := false, ft := true }
def maskFtTc : FlagSet := { busy := false, tc := true, ft := true }

end Sys2Proof.Machine
end

