-- ==== Sys2Proof/Machine/Flash.lean ====
section
/-! DEFINITION. The eleven flash commands as the device executes them (rules R190 to R207), one meaning each. A meaning is
what the device does when it receives the frame; for a program or an erase that is the start of the internal
operation, whose end is a step of its own (rule R203, `deviceEnd`). -/

namespace Sys2Proof.Machine

/-- Any frame other than a reset-enable and a reset disarms a pending reset-enable before acting (rules R191, R194). -/
def disarm (s : State) : State := s.withDev { s.dev with armed := false }

/-- The start of an internal operation: `DEV.BUSY <- 1`, `DEV.OP <- op` (rules R195, R197, R202). -/
def startOp (op : DevOp) (s : State) : State := s.withDev { s.dev with busy := true, op := op, armed := false }

/-- The data phase the device opens for a read frame (rules R191, R196; log entry 19). -/
def openAnswer (a : Answer) (s : State) : State := s.withDev { s.dev with answer := a, armed := false }

/-- The bytes an abandoned operation covered become unspecified: a free value each (rule R195, U8). -/
def abandonOp (s : State) : State :=
  useFree (opTargets s.cfg s.dev.op).length
    (s.withDev { s.dev with mem := memRelease s.dev.mem (opTargets s.cfg s.dev.op) s.env.frees })

/-- The memory effect of the internal operation that ends (rules R197, R202, R203). -/
def applyOp (s : State) : State :=
  match s.dev.op with
  | .none => s
  | .program a d =>
    useFree d.length
      (s.withDev { s.dev with mem := memProgram s.dev.mem ((programTargets s.cfg a d.length).zip d) s.env.frees })
  | .erase lo hi => s.withDev { s.dev with mem := memErase s.dev.mem lo hi }
  | .reset => s

/-- DEV's own step (rule R203), enabled while it is busy: the effect, then `DEV.OP <- none`, `DEV.BUSY <- 0` and the
latch auto-clears. DESIGN CHOICE, log entry 39: an operation that had not ended when the host went on after a failure has
the same effect at its end, where U8 allows its bytes any value (rules R73, R265). -/
def deviceEnd (s : State) : State :=
  if s.dev.busy then
    let s' := applyOp s
    s'.withDev { s'.dev with op := .none, busy := false, wel := false }
  else s

/-- The next data byte of the read frame on the bus, evaluated now (rules R191, R196, R221). A device that ignored the
frame sends free bytes (U9). -/
def supplyByte (s : State) : Byte × State :=
  match s.dev.answer with
  | .status => (statusByte s.cfg s.dev, s)
  | .array a => (memRead s.dev.mem a, s.withDev { s.dev with answer := .array (wrapAddress s.cfg (a + 1)) })
  | .none => (Config.freeByte s.env.frees, useFree 1 s)
  | .ignored => (Config.freeByte s.env.frees, useFree 1 s)

/-- RDSR (rule R191): always accepted; the status byte is evaluated when it is transferred. -/
def execRdsr (s : State) : Host.Outcome State Fault Refusal := .next (openAnswer .status s)

/-- WREN (rule R192): sets the latch unless busy. -/
def execWren (s : State) : Host.Outcome State Fault Refusal :=
  .next (disarm (if s.dev.busy then s else s.withDev { s.dev with wel := true }))

/-- WRDI (rule R193): clears the latch unless busy. -/
def execWrdi (s : State) : Host.Outcome State Fault Refusal :=
  .next (disarm (if s.dev.busy then s else s.withDev { s.dev with wel := false }))

/-- RSTEN (rule R194): arms a reset, busy or not. -/
def execRsten (s : State) : Host.Outcome State Fault Refusal := .next (s.withDev { s.dev with armed := true })

/-- RST (rule R195): if armed, abandons the operation in progress, clears the latch and is busy with the reset; if not
armed, ignored. -/
def execRst (s : State) : Host.Outcome State Fault Refusal :=
  if s.dev.armed then
    let s' := abandonOp s
    .next (startOp .reset (s'.withDev { s'.dev with wel := false }))
  else .next s

/-- QREAD (rule R196): opens the array's data phase at `a`; a busy device ignores the frame. The device does not use the
byte count, which it learns from the frame's end (rule R101); a read of no bytes is no frame (U5). -/
def execQread (a : Addr24) (n : Word) (s : State) : Host.Outcome State Fault Refusal :=
  if n = 0 then .refused .wrongFrameShape
  else .next (openAnswer (if s.dev.busy then .ignored else .array (wrapAddress s.cfg a.toNat)) s)

/-- QPP (rule R197): needs an idle device and the latch, else ignored; starts the program. A program of no bytes is no
frame (U5); one that names a byte outside the array faults (U3). -/
def execQpp (a : Addr24) (d : List Byte) (s : State) : Host.Outcome State Fault Refusal :=
  if d = [] then .refused .wrongFrameShape
  else if s.dev.busy || !s.dev.wel then .next (disarm s)
  else if (programTargets s.cfg a.toNat d.length).all (fun k => decide (k < s.cfg.capacity)) then
    .next (startOp (.program a.toNat d) s)
  else .fault .noFlashByte

/-- The common part of the erases (rule R202): needs an idle device and the latch, else ignored; starts the erase of
`lo .. hi - 1`, which must lie in the array (U3). -/
def eraseFrame (lo hi : Nat) (s : State) : Host.Outcome State Fault Refusal :=
  if s.dev.busy || !s.dev.wel then .next (disarm s)
  else if hi ≤ s.cfg.capacity then .next (startOp (.erase lo hi) s)
  else .fault .noFlashByte

/-- SE4K (rule R198). -/
def execSe4k (a : Addr24) (s : State) : Host.Outcome State Fault Refusal :=
  eraseFrame (blockStart s.cfg.subsectorSize a) (blockStart s.cfg.subsectorSize a + s.cfg.subsectorSize) s

/-- BE32K (rule R199). -/
def execBe32k (a : Addr24) (s : State) : Host.Outcome State Fault Refusal :=
  eraseFrame (blockStart s.cfg.block32Size a) (blockStart s.cfg.block32Size a + s.cfg.block32Size) s

/-- BE64K (rule R200). -/
def execBe64k (a : Addr24) (s : State) : Host.Outcome State Fault Refusal :=
  eraseFrame (blockStart s.cfg.sectorSize a) (blockStart s.cfg.sectorSize a + s.cfg.sectorSize) s

/-- CE (rule R201). -/
def execCe (s : State) : Host.Outcome State Fault Refusal := eraseFrame 0 s.cfg.capacity s

end Sys2Proof.Machine
end

