-- ==== Sys2Proof/Machine/Bus.lean ====
section
/-! DEFINITION. The Bus Register Interface: the controller of ENV-REF (rules R212 to R217, R220, R221), the turn the other
agents take after each SEQ step (rule R13), and the nine primitives of SEQ with `tick` (rules R11, R210, R246), one
SEQ step each. -/

namespace Sys2Proof.Machine

/-! ### The controller and the device as agents -/

/-- A flash command met by the device. A host operation is never read from a frame. -/
def flashExec (i : Instr) (s : State) : Host.Outcome State Fault Refusal :=
  match i with
  | .rdsr => execRdsr s
  | .wren => execWren s
  | .wrdi => execWrdi s
  | .rsten => execRsten s
  | .rst => execRst s
  | .qread a n => execQread a n s
  | .qpp a d => execQpp a d s
  | .se4k a => execSe4k a s
  | .be32k a => execBe32k a s
  | .be64k a => execBe64k a s
  | .ce => execCe s
  | .readStatus | .waitNotBusy _ | .sendCommand _ _ | .writeEnable | .resetMemory | .read _ _ | .write _ _
  | .erase _ _ | .chipErase | .initBus | .deinitBus | .abiInitialize | .abiProgram _ _ | .abiEraseRange _ _
  | .abiVerify => .refused .wrongFrameShape

/-- A step's outcome as the result of a procedure. -/
def Res.ofOutcome (o : Host.Outcome State Fault Refusal) : Res Unit :=
  match o with
  | .next s => .ok () s
  | .fault f => .fault f
  | .refused r => .refused r

/-- The frame reaches the device, which decodes and executes it (rules R96, R100, R207, U5). -/
def deliver (f : Frame) (s : State) : Res Unit :=
  match decodeFrame s.cfg f with
  | .ok i => Res.ofOutcome (flashExec i s)
  | .error (.unknownFlashOpcode _) => .refused .unknownFlashOpcode
  | .error (.wrongFrameShape _) => .refused .wrongFrameShape
  | .error (.illegalCommand _) => .refused .wrongFrameShape

/-- A no-data frame: one step delivers it, raises TC and ends it (rule R221). -/
def commandFrameStep (s : State) : Res Unit :=
  (deliver (frameOf s.bri.cfg []) s).bind fun _ s' => .ok () (s'.withBri { s'.bri with tc := true, busy := false })

/-- The header of a read frame reaches the device before its first byte (log entry 19). -/
def openReadFrame (s : State) : Res Unit :=
  if s.bri.rem = s.bri.cfg.length.toNat then deliver (frameOf s.bri.cfg []) s else .ok () s

/-- The controller takes one byte from the device into the FIFO (rule R221). -/
def takeByte (s : State) : State :=
  let p := supplyByte s
  p.2.withBri { p.2.bri with fifo := p.2.bri.fifo ++ [p.1], rem := p.2.bri.rem - 1
                             tc := p.2.bri.tc || p.2.bri.rem - 1 == 0 }

/-- A read frame: a byte moves while there is one to move and room for it; when all have moved and the FIFO is drained,
the frame ends (rules R215, R221). -/
def readFrameStep (s : State) : Res Unit :=
  if s.bri.rem = 0 then .ok () (if s.bri.fifo = [] then s.withBri { s.bri with busy := false } else s)
  else if s.bri.fifo.length < s.cfg.fifoDepth then (openReadFrame s).bind fun _ s' => .ok () (takeByte s')
  else .ok () s

/-- A write frame: a byte moves from the FIFO to the bus; the last one delivers the frame, raises TC and ends it
(rule R221). -/
def writeFrameStep (s : State) : Res Unit :=
  match s.bri.fifo with
  | [] => .ok () s
  | b :: rest =>
    if s.bri.rem = 0 then .ok () s
    else
      let s1 := s.withBri { s.bri with fifo := rest, out := s.bri.out ++ [b], rem := s.bri.rem - 1 }
      if s1.bri.rem = 0 then
        (deliver (frameOf s1.bri.cfg s1.bri.out) s1).bind fun _ s2 =>
          .ok () (s2.withBri { s2.bri with tc := true, busy := false })
      else .ok () s1

/-- BRI's own step (rule R221), enabled while a frame is in progress on an enabled controller. -/
def controllerStep (s : State) : Res Unit :=
  if s.bri.en && s.bri.busy then
    match s.bri.cfg.direction with
    | .none => commandFrameStep s
    | .read => readFrameStep s
    | .write => writeFrameStep s
  else .ok () s

/-- A step of one agent; one that is not enabled does nothing. -/
def agentStep (a : AgentStep) (s : State) : Res Unit :=
  match a with
  | .bri => controllerStep s
  | .dev => .ok () (deviceEnd s)

/-- The steps the other agents take, in order. -/
def agentSteps : List AgentStep → State → Res Unit
  | [], s => .ok () s
  | a :: as, s => (agentStep a s).bind fun _ s' => agentSteps as s'

/-- The other agents' turn after a SEQ step (rule R13): under ENV-REF the steps the draw says, under ENV-ANY nothing a
model tracks (rule R211). -/
def otherAgents (d : Draw) (s : State) : Res Unit :=
  match s.env.model with
  | .any => .ok () s
  | .ref => agentSteps d.moves s

/-- One SEQ step at line `ph`: unless the host resets SEQ now (rule R260), the step is taken, with the draw for its
answer, and then the other agents take their turn. -/
def seqStep {α : Type} (ph : Nat) (s : State) (act : Draw → State → Res α) : Res α :=
  if s.host.resetAt = some s.env.now then .reset (resetSeq s)
  else
    (act (nextDraw s) (advance (setPhase ph s))).bind fun a s' =>
      (otherAgents (nextDraw s) s').bind fun _ s'' => .ok a s''

/-- Under ENV-REF a primitive needs an enabled controller (U4); under ENV-ANY it has `any` for its effect. -/
def onController {α : Type} (s : State) (any ref : Res α) : Res α :=
  match s.env.model with
  | .any => any
  | .ref => if s.bri.en then ref else .refused .controllerDisabled

/-! ### The primitives -/

/-- `tick()`: changes no state; the others may run (rule R246). -/
def tick (ph : Nat) (s : State) : Res Unit := seqStep ph s fun _ s => .ok () (record .tick s)

/-- `bri.flags()` (rules R210, R215): no side effect. Under ENV-ANY any flag set (rule R211). -/
def briFlags (ph : Nat) (s : State) : Res FlagSet :=
  seqStep ph s fun d s =>
    onController s (.ok d.flags (record (.flags d.flags) s))
      (.ok (controllerFlags s.cfg s.bri) (record (.flags (controllerFlags s.cfg s.bri)) s))

/-- `bri.configure(t)` (rules R33, R213). -/
def briConfigure (ph : Nat) (t : Txn) (s : State) : Res Unit :=
  seqStep ph s fun _ s =>
    onController s (.ok () (record (.configure t) (s.withBri { s.bri with cfg := t })))
      (if s.bri.busy then .refused .controllerBusy
       else .ok () (record (.configure t) (s.withBri { s.bri with cfg := t })))

/-- `bri.trigger()`: starts the configured frame (rule R214; exactly one frame, D25). -/
def briTrigger (ph : Nat) (s : State) : Res Unit :=
  seqStep ph s fun _ s =>
    onController s (.ok () (record .trigger s))
      (.ok () (record .trigger (s.withBri { s.bri with busy := true, rem := s.bri.cfg.length.toNat, out := [] })))

/-- `bri.clear({TC})` (rule R216). -/
def briClearTc (ph : Nat) (s : State) : Res Unit :=
  seqStep ph s fun _ s =>
    onController s (.ok () (record .clearTc s)) (.ok () (record .clearTc (s.withBri { s.bri with tc := false })))

/-- `bri.clear(ALL)` (rule R216): of the flags the source names only TC is clearable. -/
def briClearAll (ph : Nat) (s : State) : Res Unit :=
  seqStep ph s fun _ s =>
    onController s (.ok () (record .clearAll s)) (.ok () (record .clearAll (s.withBri { s.bri with tc := false })))

/-- `bri.read_byte()` (rule R217): pops the FIFO; on an empty one ENV-REF has no meaning. Under ENV-ANY any byte. -/
def briReadByte (ph : Nat) (s : State) : Res Byte :=
  seqStep ph s fun d s =>
    onController s (.ok d.byte (record (.readByte d.byte) s))
      (match s.bri.fifo with
       | [] => .refused .fifoEmpty
       | b :: rest => .ok b (record (.readByte b) (s.withBri { s.bri with fifo := rest })))

/-- `bri.write_byte(v)` (rule R217): appends to the FIFO; on a full one ENV-REF has no meaning. -/
def briWriteByte (ph : Nat) (v : Byte) (s : State) : Res Unit :=
  seqStep ph s fun _ s =>
    onController s (.ok () (record (.writeByte v) s))
      (if s.bri.fifo.length < s.cfg.fifoDepth then
         .ok () (record (.writeByte v) (s.withBri { s.bri with fifo := s.bri.fifo ++ [v] }))
       else .refused .fifoFull)

/-- `bri.init(fields)` (rule R220). -/
def briInit (ph : Nat) (fields : BusInit) (s : State) : Res Unit :=
  seqStep ph s fun _ s => .ok () (record (.init fields) (s.withBri { s.bri with init := fields }))

/-- What `bri.enable()` makes of the controller (rule R220). -/
def enabledController (m : EnvModel) (b : Bri) : Bri :=
  match m with
  | .any => { b with en := true }
  | .ref => { b with en := true, busy := false, tc := false, fifo := [], rem := 0 }

/-- `bri.enable()` (rule R220). -/
def briEnable (ph : Nat) (s : State) : Res Unit :=
  seqStep ph s fun _ s => .ok () (record .enable (s.withBri (enabledController s.env.model s.bri)))

/-- The controller after `bri.disable()`: disabled, every other part a free value, the FIFO within its depth (rules
R212, R220, U2; log entry 9). -/
def disabledController (c : Cfg) (k : Nat) : Bri :=
  { en := false, init := Config.freeBusInit k, cfg := Config.freeTxn k, busy := (Config.freeFlags k).busy
    tc := (Config.freeFlags k).tc, fifo := (Config.freeQueue k).take c.fifoDepth, rem := Config.freeCount k
    out := Config.freeQueue (k + 1) }

/-- `bri.disable()` (rule R220). -/
def briDisable (ph : Nat) (s : State) : Res Unit :=
  seqStep ph s fun _ s =>
    .ok () (record .disable (useFree 2 (s.withBri (disabledController s.cfg s.env.frees))))

end Sys2Proof.Machine
end

