-- ==== Sys2Proof/Machine/Issue.lean ====
section
/-! DEFINITION. The helper procedures WAIT_FLAG (rule R218), ISSUE (rule R219) and CLEANUP (rule R236), and how a host
operation starts and ends (rules R25, R26, R180, R235). -/

namespace Sys2Proof.Machine

/-- The loop of WAIT_FLAG, by recursion on the value of `TMO_BUS` (rules R12, R218): the zero test comes first, then the
sample, then the tick and the decrement. -/
def waitFlagLoop (mask : FlagSet) (e : Bool) : Nat → State → Res Waited
  | 0, s => .ok .timeout s
  | k + 1, s =>
    (briFlags 1 s).bind fun f s =>
      if flagsMet mask e f then .ok .met s
      else (tick 2 s).bind fun _ s => waitFlagLoop mask e k (countTmoBus s)

/-- WAIT_FLAG(M, e, N) (rule R218). -/
def waitFlag (mask : FlagSet) (e : Bool) (n : Word) (s : State) : Res Waited :=
  waitFlagLoop mask e n.toNat (setTmoBus n s)

/-- `call WAIT_FLAG(M, e, BUS_WAIT_TICKS)` at line `ph`: the budget of every bus-flag wait (rules R8, R32). -/
def callWait (ph : Nat) (mask : FlagSet) (e : Bool) (s : State) : Res Waited :=
  call ph .waitFlag s (waitFlag mask e s.cfg.busWaitTicks)

/-- `x[TXN] <- t ; bri.configure(x[TXN])`, then `bri.trigger()` (rule R219 lines 2 and 3). -/
def startFrame (t : Txn) (s : State) : Res Unit :=
  (briConfigure 2 t (setTxn t s)).bind fun _ s => briTrigger 3 s

/-- ISSUE(t) (rule R219): waits for bus idle, then starts the frame. Its failure has no stage code; it is `timeout`. -/
def issue (t : Txn) (s : State) : Res Waited :=
  (callWait 1 maskBusy false s).bind fun w s =>
    match w with
    | .timeout => .ok .timeout s
    | .met => (startFrame t s).bind fun _ s => .ok .met s

/-- `call ISSUE(t)` at line `ph`; its failure becomes the caller's `Fail(code, BusTimeout)`. -/
def callIssue (ph : Nat) (code : Byte) (t : Txn) (s : State) : Res Unit :=
  (call ph .issue s (issue t)).orTimeout code

/-- CLEANUP: `bri.clear(ALL)`, one SEQ step; it does not wait and cannot fail (rule R236). DESIGN CHOICE, log entry 35:
the record of the failed operation, which rule R104 makes CLEANUP's caller, stays beneath CLEANUP's record until the
completing step, at phase 0, for the call of rule R235 stands on no numbered line; and CLEANUP's one step, to which rule
R236 gives no number, is its line 1. -/
def cleanup (s : State) : Res Unit := call 0 .cleanup s (briClearAll 1)

/-- The end of a host operation (rule R235): on `Ok` the completing step; on `Fail` CLEANUP, then the completing step.
`value` gives `RES_VALUE` of a success and `code` the stage code reported for the failing stage (rules R180, R235).
DESIGN CHOICE, log entry 38: a failure leaves `BRI.BUSY`, `BRI.FIFO` and `BRI.rem` as the frame in flight has them, which
under ENV-REF is as rule R221 and the schedule make them, where U10 allows any value (rule R266). -/
def finish {α : Type} (value : α → DWord) (code : Byte → Byte) (r : Res α) : Host.Outcome State Fault Refusal :=
  match r with
  | .ok a s => .next (complete 0 .none (value a) s)
  | .fail c e s =>
    match cleanup s with
    | .ok _ s' => .next (complete (code c) e 0 s')
    | .fail _ _ s' => .next (complete (code c) e 0 s')
    | .reset s' => .next s'
    | .fault f => .fault f
    | .refused x => .refused x
  | .reset s => .next s
  | .fault f => .fault f
  | .refused x => .refused x

/-- The end of a core operation with no value (rule R235). -/
def finishUnit (r : Res Unit) : Host.Outcome State Fault Refusal := finish (fun _ => 0) id r

/-- The end of a core operation that yields a status byte (rules R24, R235). -/
def finishByte (r : Res Byte) : Host.Outcome State Fault Refusal := finish (fun b => b.setWidth 64) id r

/-- The end of an ABI operation: value 1 and code 0 on success, value 0 and code 1 on failure, the cause kept
(rule R180). -/
def finishAbi (r : Res Unit) : Host.Outcome State Fault Refusal := finish (fun _ => 1) (fun _ => 1) r

/-- The gate of rule R26: while `INITED` is 0 the operation completes at once with code 0xFE, cause `NotInitialised`. -/
def gated (s : State) (run : State → Host.Outcome State Fault Refusal) : Host.Outcome State Fault Refusal :=
  if s.seq.inited then run s else .next (refuseCommand 0xFE .notInitialised s)

end Sys2Proof.Machine
end

