-- ==== Sys2Proof/Machine/Poller.lean ====
section
/-! DEFINITION. The Status Poller: READ_STATUS (rule R121) and WAIT_NOT_BUSY (rule R122). -/

namespace Sys2Proof.Machine

/-- READ_STATUS (rule R121). -/
def readStatus (s : State) : Res Byte :=
  (callIssue 1 1 (txnRdsr s.cfg) s).bind fun _ s =>
  ((callWait 2 maskTc true s).orTimeout 1).bind fun _ s =>
  (briClearTc 3 s).bind fun _ s =>
  (briReadByte 4 s).bind fun b s => .ok b (setSrSnap b s)

/-- `call READ_STATUS()` at line `ph`. -/
def callReadStatus (ph : Nat) (s : State) : Res Byte := call ph .readStatus s readStatus

/-- The loop of WAIT_NOT_BUSY, by recursion on the value of `TMO_DEV` (rule R122). -/
def waitNotBusyLoop : Nat → State → Res Byte
  | 0, s => .fail 2 .deviceTimeout s
  | k + 1, s =>
    ((callReadStatus 1 s).recode 1).bind fun b s =>
      if statusBusy s.cfg b then (tick 2 s).bind fun _ s => waitNotBusyLoop k (countTmoDev s)
      else .ok b s

/-- WAIT_NOT_BUSY(max_wait) (rule R122). -/
def waitNotBusy (maxWait : Word) (s : State) : Res Byte := waitNotBusyLoop maxWait.toNat (setTmoDev maxWait s)

/-- `call WAIT_NOT_BUSY(n)` at line `ph`; the value is ignored and a failure becomes the caller's `code` (D40). -/
def callWaitNotBusy (ph : Nat) (code : Byte) (n : Word) (s : State) : Res Unit :=
  ((call ph .waitNotBusy s (waitNotBusy n)).recode code).bind fun _ s => .ok () s

/-- The host operation READ_STATUS (rule R121). -/
def execReadStatus (s : State) : Host.Outcome State Fault Refusal :=
  gated s fun s => finishByte (readStatus (enterProc .readStatus s))

/-- The host operation WAIT_NOT_BUSY (rule R122). -/
def execWaitNotBusy (maxWait : Word) (s : State) : Host.Outcome State Fault Refusal :=
  gated s fun s => finishByte (waitNotBusy maxWait (enterProc .waitNotBusy s))

end Sys2Proof.Machine
end

