-- ==== Sys2Proof/Machine/Protocol.lean ====
section
/-! DEFINITION. The Command Protocol Layer: SEND_COMMAND (rule R131), WRITE_ENABLE (rule R132), RESET_MEMORY
(rule R133). -/

namespace Sys2Proof.Machine

/-- The frame SEND_COMMAND issues: `F_CMDA(op, a)` when an address is attached, else `F_CMD(op)` (rule R131). -/
def commandTxn (op : Byte) : Option Addr24 → Txn
  | none => txnCmd op
  | some a => txnCmda op a

/-- SEND_COMMAND(op, a?) (rule R131). -/
def sendCommand (op : Byte) (a : Option Addr24) (s : State) : Res Unit :=
  (callIssue 1 1 (commandTxn op a) s).bind fun _ s =>
  ((callWait 2 maskTc true s).orTimeout 1).bind fun _ s => briClearTc 3 s

/-- `call SEND_COMMAND(op, a?)` at line `ph`; a failure becomes the caller's `code`. -/
def callSendCommand (ph : Nat) (code : Byte) (op : Byte) (a : Option Addr24) (s : State) : Res Unit :=
  (call ph .sendCommand s (sendCommand op a)).recode code

/-- The latch poll of WRITE_ENABLE, by recursion on the value of `TMO_DEV` (rule R132). -/
def latchPoll : Nat → State → Res Unit
  | 0, s => .fail 3 .writeEnableFailed s
  | k + 1, s =>
    ((callReadStatus 2 s).recode 2).bind fun b s =>
      if statusWel s.cfg b then .ok () s
      else (tick 3 s).bind fun _ s => latchPoll k (countTmoDev s)

/-- WRITE_ENABLE (rule R132). -/
def writeEnable (s : State) : Res Unit :=
  (callSendCommand 1 1 s.cfg.opWriteEnable none s).bind fun _ s =>
    latchPoll s.cfg.welRetry.toNat (setTmoDev s.cfg.welRetry s)

/-- `call WRITE_ENABLE()` at line 1 of a chunk or an erase; a failure becomes the caller's stage 1. -/
def callWriteEnable (s : State) : Res Unit := (call 1 .writeEnable s writeEnable).recode 1

/-- RESET_MEMORY (rule R133). -/
def resetMemory (s : State) : Res Unit :=
  (callSendCommand 1 1 s.cfg.opResetEnable none s).bind fun _ s =>
  (callSendCommand 2 2 s.cfg.opResetMemory none s).bind fun _ s =>
  callWaitNotBusy 3 3 s.cfg.resetWaitTicks s

/-- The host operation SEND_COMMAND (rule R131): the address, when attached, is `trunc_24(CMD_ADDR)`. -/
def execSendCommand (op : Byte) (addr : Option Word) (s : State) : Host.Outcome State Fault Refusal :=
  gated s fun s => finishUnit (sendCommand op (addr.map trunc24) (enterProc .sendCommand s))

/-- The host operation WRITE_ENABLE (rule R132). -/
def execWriteEnable (s : State) : Host.Outcome State Fault Refusal :=
  gated s fun s => finishUnit (writeEnable (enterProc .writeEnable s))

/-- The host operation RESET_MEMORY (rule R133). -/
def execResetMemory (s : State) : Host.Outcome State Fault Refusal :=
  gated s fun s => finishUnit (resetMemory (enterProc .resetMemory s))

end Sys2Proof.Machine
end

