-- ==== Sys2Proof/Machine/Read.lean ====
section
/-! DEFINITION. The read path: READ (rule R141). -/

namespace Sys2Proof.Machine

/-- Line 5 of READ: `b <- bri.read_byte() ; MemWrite(HBUF, x[IDX], 1, b)`, then `IDX` moves on (rule R141). -/
def readOneByte (s : State) : Res Unit :=
  (briReadByte 5 s).bind fun b s => .ok () (setIdx (s.seq.idx + 1) (hbufWrite s.seq.idx b s))

/-- The byte loop of READ, by recursion on the bytes left, `length - IDX` (rule R141). -/
def readBytes : Nat → State → Res Unit
  | 0, s => .ok () s
  | k + 1, s =>
    ((callWait 4 maskFtTc true s).orTimeout 2).bind fun _ s =>
    (readOneByte s).bind fun _ s => readBytes k s

/-- READ(address, length) (rule R141). Lines 1 to 3 "are ISSUE written out": they are the `call` of ISSUE that rule R104
draws, with READ's own code 1 for its failure. DEDUCED, log entry 36: READ stands at line 1 while ISSUE runs. -/
def read (addr len : Word) (s : State) : Res Unit :=
  if len = 0 then .ok () s
  else
    (callIssue 1 1 (txnQread s.cfg (trunc24 addr) len) s).bind fun _ s =>
    (readBytes len.toNat (setIdx 0 s)).bind fun _ s =>
    ((callWait 6 maskTc true s).orTimeout 3).bind fun _ s => briClearTc 7 s

/-- The host operation READ (rule R141). -/
def execRead (addr len : Word) (s : State) : Host.Outcome State Fault Refusal :=
  gated s fun s => finishUnit (read addr len (enterProc .read s))

end Sys2Proof.Machine
end

