-- ==== Sys2Proof/Machine/Program.lean ====
section
/-! DEFINITION. The write (program) path: WRITE (rules R151, R152). -/

namespace Sys2Proof.Machine

/-- Line 4 of WRITE: `v <- MemRead(HBUF, x[BUF_OFF] + x[IDX], 1) ; bri.write_byte(v)`, then `IDX` moves on. -/
def writeOneByte (s : State) : Res Unit :=
  (briWriteByte 4 (hbufRead s (s.seq.bufOff + s.seq.idx)) s).bind fun _ s => .ok () (setIdx (s.seq.idx + 1) s)

/-- The byte loop of a chunk, by recursion on the bytes left, `CUR_SIZE - IDX`; each byte waits for FIFO space within
the bus budget (rule R151 line 3, D12). -/
def writeBytes : Nat → State → Res Unit
  | 0, s => .ok () s
  | k + 1, s =>
    ((callWait 3 maskFt true s).orTimeout 3).bind fun _ s =>
    (writeOneByte s).bind fun _ s => writeBytes k s

/-- The registers at the end of a chunk (rule R151): the next chunk's address, buffer offset and size. -/
def nextChunkRegs (s : State) : State :=
  setProgramLoop (s.seq.curAddr + s.seq.curSize)
    (nextChunk s.cfg s.seq.endAddr (s.seq.curAddr + s.seq.curSize)) s.seq.endAddr (s.seq.bufOff + s.seq.curSize) s

/-- One chunk of WRITE, lines 1 to 7 (rule R151). -/
def writeChunk (s : State) : Res Unit :=
  (callWriteEnable s).bind fun _ s =>
  (callIssue 2 2 (txnQpp s.cfg (trunc24 s.seq.curAddr) s.seq.curSize) s).bind fun _ s =>
  (writeBytes s.seq.curSize.toNat (setIdx 0 s)).bind fun _ s =>
  ((callWait 5 maskTc true s).orTimeout 4).bind fun _ s =>
  (briClearTc 6 s).bind fun _ s =>
  (callWaitNotBusy 7 5 s.cfg.programWaitTicks s).bind fun _ s => .ok () (nextChunkRegs s)

/-- The chunk loop of WRITE (rule R151), by recursion on a bound of the number of chunks: each chunk programs at least
one byte, so `length` bounds it for every well-formed `Cfg` (rule R152); running out is refused (U12). -/
def writeChunks : Nat → State → Res Unit
  | 0, _ => .refused .illFormedCfg
  | k + 1, s =>
    (writeChunk s).bind fun _ s => if s.seq.curAddr < s.seq.endAddr then writeChunks k s else .ok () s

/-- WRITE(address, length) (rule R151). -/
def write (addr len : Word) (s : State) : Res Unit :=
  if len = 0 then .ok () s
  else writeChunks len.toNat (setProgramLoop addr (firstChunk s.cfg addr len) (addr + len) 0 s)

/-- The host operation WRITE (rule R151). -/
def execWrite (addr len : Word) (s : State) : Host.Outcome State Fault Refusal :=
  gated s fun s => finishUnit (write addr len (enterProc .write s))

end Sys2Proof.Machine
end

