-- ==== Sys2Proof/Machine/Erase.lean ====
section
/-! DEFINITION. The erase path: ERASE (rules R160, R161) and CHIP_ERASE (rule R162). -/

namespace Sys2Proof.Machine

/-- CHIP_ERASE (rule R162). -/
def chipErase (s : State) : Res Unit :=
  (callWriteEnable s).bind fun _ s =>
  (callSendCommand 2 2 s.cfg.opBulkErase none s).bind fun _ s =>
  callWaitNotBusy 3 3 (ticksOfMs s.cfg s.cfg.maxWaitBulkMs) s

/-- The per-block path of ERASE with the opcode and the budget of its variant (rules R160, R161). -/
def eraseBlock (addr : Word) (op : Byte) (ms : Nat) (s : State) : Res Unit :=
  (callWriteEnable s).bind fun _ s =>
  (callSendCommand 2 2 op (some (trunc24 addr)) s).bind fun _ s =>
  (callWaitNotBusy 3 3 (ticksOfMs s.cfg ms) s).bind fun _ s =>
  ((callWait 4 maskBusy false s).orTimeout 4).bind fun _ s => briClearAll 5 s

/-- ERASE(address, variant) (rules R160, R161): the whole-chip variant goes to CHIP_ERASE and nowhere else; the 32 KiB
variant has its own opcode and the sector budget (`90_conflicts.md` C1). -/
def erase (addr : Word) (v : BlockSize) (s : State) : Res Unit :=
  match v with
  | .b4K => eraseBlock addr s.cfg.opErase4K s.cfg.maxWaitSubsectorMs s
  | .b32K => eraseBlock addr s.cfg.opErase32K s.cfg.maxWaitSectorMs s
  | .b64K => eraseBlock addr s.cfg.opErase64K s.cfg.maxWaitSectorMs s
  | .all => call 0 .chipErase s chipErase

/-- The host operation ERASE (rule R161). -/
def execErase (addr : Word) (v : BlockSize) (s : State) : Host.Outcome State Fault Refusal :=
  gated s fun s => finishUnit (erase addr v (enterProc .erase s))

/-- The host operation CHIP_ERASE (rule R162). -/
def execChipErase (s : State) : Host.Outcome State Fault Refusal :=
  gated s fun s => finishUnit (chipErase (enterProc .chipErase s))

end Sys2Proof.Machine
end

