-- ==== Sys2Proof/Machine/BusInit.lean ====
section
/-! DEFINITION. Bus initialisation and teardown: INIT_BUS (rule R171) and DEINIT_BUS (rule R172). -/

namespace Sys2Proof.Machine

/-- The seven fields INIT_BUS writes (rule R171). -/
def initFields (c : Cfg) : BusInit :=
  { fifoThreshold := c.fifoThreshold, prescaler := c.initPrescaler, sampleShift := c.initSampleShift
    addressingMode := c.initAddressingMode, flashSize := c.initFlashSize, csHold := c.initCsHold
    clockMode := c.initClockMode }

/-- INIT_BUS (rule R171); RESET_MEMORY's codes go out unchanged. -/
def initBus (s : State) : Res Unit :=
  (briInit 1 (initFields s.cfg) (setInited false s)).bind fun _ s =>
  (briEnable 2 s).bind fun _ s =>
  (call 3 .resetMemory s resetMemory).bind fun _ s => .ok () (setInited true s)

/-- DEINIT_BUS (rule R172). -/
def deinitBus (s : State) : Res Unit := (briDisable 1 s).bind fun _ s => .ok () (setInited false s)

/-- The host operation INIT_BUS (rule R171), accepted whatever `INITED` is (rule R26). -/
def execInitBus (s : State) : Host.Outcome State Fault Refusal := finishUnit (initBus (enterProc .initBus s))

/-- The host operation DEINIT_BUS (rule R172), accepted whatever `INITED` is (rule R26). -/
def execDeinitBus (s : State) : Host.Outcome State Fault Refusal := finishUnit (deinitBus (enterProc .deinitBus s))

end Sys2Proof.Machine
end

