-- ==== Sys2Proof/Machine/HostAbi.lean ====
section
/-! DEFINITION. The Host Loader ABI adapter (rules R180 to R185). -/

namespace Sys2Proof.Machine

/-- ABI_INITIALIZE (rule R182): the external bring-up is no SEQ step. -/
def abiInitialize (s : State) : Res Unit := call 1 .initBus s initBus

/-- ABI_PROGRAM(address, size) (rule R183). -/
def abiProgram (addr len : Word) (s : State) : Res Unit := call 1 .write s (write (abiMask s.cfg addr) len)

/-- The block loop of ABI_ERASE_RANGE (rule R184), by recursion on a bound of the number of blocks: `ER_ADDR` grows each
turn, so the distance to `ER_END` bounds it for every well-formed `Cfg`; running out is refused (U12). -/
def eraseBlocks : Nat → State → Res Unit
  | 0, s => if s.seq.erEnd < s.seq.erAddr then .ok () s else .refused .illFormedCfg
  | k + 1, s =>
    if s.seq.erEnd < s.seq.erAddr then .ok () s
    else (call 1 .erase s (erase s.seq.erAddr .b4K)).bind fun _ s =>
      eraseBlocks k (setErAddr (s.seq.erAddr + BitVec.ofNat 32 s.cfg.subsectorSize) s)

/-- ABI_ERASE_RANGE(start, end) (rule R184): both addresses masked, the start rounded down, the end inclusive (D29). -/
def abiEraseRange (first last : Word) (s : State) : Res Unit :=
  let s := setErAddr (abiEraseStart s.cfg first) (setErEnd (abiMask s.cfg last) s)
  eraseBlocks (s.seq.erEnd.toNat + 1 - s.seq.erAddr.toNat) s

/-- The host operation ABI_INITIALIZE (rule R182), accepted whatever `INITED` is (rule R26). -/
def execAbiInitialize (s : State) : Host.Outcome State Fault Refusal :=
  finishAbi (abiInitialize (enterProc .abiInitialize s))

/-- The host operation ABI_PROGRAM (rule R183). -/
def execAbiProgram (addr len : Word) (s : State) : Host.Outcome State Fault Refusal :=
  gated s fun s => finishAbi (abiProgram addr len (enterProc .abiProgram s))

/-- The host operation ABI_ERASE_RANGE (rule R184). -/
def execAbiEraseRange (first last : Word) (s : State) : Host.Outcome State Fault Refusal :=
  gated s fun s => finishAbi (abiEraseRange first last (enterProc .abiEraseRange s))

/-- The host operation ABI_VERIFY (rule R185): the stub, no primitive and no failure, accepted whatever `INITED` is. -/
def execAbiVerify (s : State) : Host.Outcome State Fault Refusal :=
  .next (complete 0 .none 0 (enterProc .abiVerify s))

end Sys2Proof.Machine
end

