-- ==== Sys2Proof/Machine/Dispatch.lean ====
section
/-! DEFINITION. One arm per constructor of Instr, each a direct call of its meaning. -/

namespace Sys2Proof.Machine

def exec (i : Instr) (s : State) : Host.Outcome State Fault Refusal :=
  match i with
  | .readStatus => Sys2Proof.Machine.execReadStatus s
  | .waitNotBusy maxWait => Sys2Proof.Machine.execWaitNotBusy maxWait s
  | .sendCommand opcode addr => Sys2Proof.Machine.execSendCommand opcode addr s
  | .writeEnable => Sys2Proof.Machine.execWriteEnable s
  | .resetMemory => Sys2Proof.Machine.execResetMemory s
  | .read addr len => Sys2Proof.Machine.execRead addr len s
  | .write addr len => Sys2Proof.Machine.execWrite addr len s
  | .erase addr variant => Sys2Proof.Machine.execErase addr variant s
  | .chipErase => Sys2Proof.Machine.execChipErase s
  | .initBus => Sys2Proof.Machine.execInitBus s
  | .deinitBus => Sys2Proof.Machine.execDeinitBus s
  | .abiInitialize => Sys2Proof.Machine.execAbiInitialize s
  | .abiProgram addr len => Sys2Proof.Machine.execAbiProgram addr len s
  | .abiEraseRange first last => Sys2Proof.Machine.execAbiEraseRange first last s
  | .abiVerify => Sys2Proof.Machine.execAbiVerify s
  | .rdsr => Sys2Proof.Machine.execRdsr s
  | .wren => Sys2Proof.Machine.execWren s
  | .wrdi => Sys2Proof.Machine.execWrdi s
  | .rsten => Sys2Proof.Machine.execRsten s
  | .rst => Sys2Proof.Machine.execRst s
  | .qread addr len => Sys2Proof.Machine.execQread addr len s
  | .qpp addr data => Sys2Proof.Machine.execQpp addr data s
  | .se4k addr => Sys2Proof.Machine.execSe4k addr s
  | .be32k addr => Sys2Proof.Machine.execBe32k addr s
  | .be64k addr => Sys2Proof.Machine.execBe64k addr s
  | .ce => Sys2Proof.Machine.execCe s

end Sys2Proof.Machine
end

