-- ==== Sys2Proof/Machine/Port.lean ====
section
/-! DEFINITION. The command port: what happens when SEQ is ready (rules R24, R25, R79, R99). -/

namespace Sys2Proof.Machine

/-- The host has done the first of the things it was to do. -/
def takeAct (s : State) : State := s.withHost { s.host with script := s.host.script.tail }

/-- An accepted command (rule R25): the operation runs to its completing step; an illegal code completes at once with
code 0xFF, cause `IllegalCommand`, whatever `INITED` is (rule R99). -/
def runCommand (w : HostWord) (s : State) : Host.Outcome State Fault Refusal :=
  match decodeHost w with
  | .ok i => exec i (acceptCommand w s)
  | .error _ => .next (refuseCommand 0xFF .illegalCommand (acceptCommand w s))

/-- SEQ waits for a command (rule R260): only the other agents run. -/
def idleTurn (s : State) : Host.Outcome State Fault Refusal :=
  match seqStep 0 s fun _ s => Res.ok () s with
  | .ok _ s' => .next s'
  | .fail _ _ s' => .next s'
  | .reset s' => .next s'
  | .fault f => .fault f
  | .refused r => .refused r

/-- One turn at the port of a ready SEQ: the host presents a command, or stores a byte in its own buffer, or does
nothing. -/
def portTurn (s : State) : Host.Outcome State Fault Refusal :=
  match s.host.script with
  | [] => idleTurn s
  | .command w :: _ => runCommand w (takeAct s)
  | .store off b :: _ => .next (hbufWrite off b (takeAct s))

/-- A command of which the table gives the low bits, every other bit 0, presented before all else by a ready SEQ. -/
def presentWord (s : State) (w : Nat) : State :=
  (s.withHost { s.host with script := .command (BitVec.ofNat 104 w) :: s.host.script }).withSeq
    { s.seq with rdy := true, pc := [] }

end Sys2Proof.Machine
end

