-- ==== Sys2Proof/Machine/Step.lean ====
section
/-! DEFINITION. One step of the machine: one turn at the command port, a whole host operation when a command is presented
(log entry 1). -/

namespace Sys2Proof.Machine

/-- One step. While RDY is 0 the port accepts nothing (rule R25, U14); no step ends in such a state. -/
def step (s : State) : Host.Outcome State Fault Refusal :=
  if s.seq.rdy then portTurn s else .refused .notReady

/-- `s` with the host presenting the command whose bits are `w` (bits the table does not give are 0). The number of bits
given changes nothing: the command word always has 104 (rule R90). -/
def State.withFetchWord (s : State) (_nbits w : Nat) : State := presentWord s w

end Sys2Proof.Machine
end

