-- ==== Sys2Proof/Safety.lean ====
section
/-! DEFINITION. The terms in which claims are made: what SEQ did on the interface, the state invariant, what each
operation asks of its environment, the bounds and the result table of the spec, and the chunk arithmetic of a write. -/

namespace Sys2Proof.Machine

/-! ### What SEQ did on the interface -/

/-- The steps recorded since `s`, newest first. -/
def newEntries (s t : State) : List TraceEntry :=
  t.env.trace.take (t.env.trace.length - s.env.trace.length)

/-- The interface steps SEQ took between `s` and `t`, oldest first. -/
def newCalls (s t : State) : List BusCall := ((newEntries s t).map TraceEntry.call).reverse

/-- The transactions configured, in order: one per frame (rule R214, D25). -/
def framesOf (l : List BusCall) : List Txn :=
  l.filterMap fun c => match c with
    | .configure t => some t
    | _ => none

/-- The bytes written to the FIFO, in order. -/
def bytesWritten (l : List BusCall) : List Byte :=
  l.filterMap fun c => match c with
    | .writeByte b => some b
    | _ => none

/-- The frames issued between `s` and `t`, in order. -/
def newFrames (s t : State) : List Txn := framesOf (newCalls s t)

/-- The number of ticks in a list of calls (rule R246). -/
def tickCount (l : List BusCall) : Nat := (l.filter (· == .tick)).length

/-- Is the instruction a host operation (format HC, rule R95)? -/
def isHostOp : Instr → Bool
  | .readStatus | .waitNotBusy _ | .sendCommand _ _ | .writeEnable | .resetMemory | .read _ _ | .write _ _
  | .erase _ _ | .chipErase | .initBus | .deinitBus | .abiInitialize | .abiProgram _ _ | .abiEraseRange _ _
  | .abiVerify => true
  | .rdsr | .wren | .wrdi | .rsten | .rst | .qread _ _ | .qpp _ _ | .se4k _ | .be32k _ | .be64k _ | .ce => false

/-- Is the operation behind the `INITED` gate (rule R26)? -/
def isGated : Instr → Bool
  | .readStatus | .waitNotBusy _ | .sendCommand _ _ | .writeEnable | .resetMemory | .read _ _ | .write _ _
  | .erase _ _ | .chipErase | .abiProgram _ _ | .abiEraseRange _ _ => true
  | .initBus | .deinitBus | .abiInitialize | .abiVerify
  | .rdsr | .wren | .wrdi | .rsten | .rst | .qread _ _ | .qpp _ _ | .se4k _ | .be32k _ | .be64k _ | .ce => false

/-- `SEQ` after a successful completing step (rules R25, R235): the registers of `q`, with code 0, cause 0 and the
value. -/
def okSeq (value : DWord) (q : Seq) : Seq :=
  { q with resCode := 0, resCause := 0, resValue := value, done := true, rdy := true, pc := [] }

/-- `SEQ` after a failing completing step (rule R235). -/
def failSeq (code : Byte) (cause : Cause) (q : Seq) : Seq :=
  { q with resCode := code, resCause := cause.code, resValue := 0, done := true, rdy := true, pc := [] }

/-- Nothing but SEQ, the controller and the model's own fields changed. -/
abbrev sameSurroundings (s t : State) : Prop := t.cfg = s.cfg ∧ t.dev = s.dev ∧ t.host = s.host

/-- Nothing but the device changed. -/
abbrev onlyDevice (s t : State) : Prop :=
  t.cfg = s.cfg ∧ t.seq = s.seq ∧ t.bri = s.bri ∧ t.host = s.host ∧ t.env = s.env

/-- The two states differ at most in SEQ's working and command registers: parameters, environment, host, the flags, the
result registers and the FSM state agree. -/
abbrev sameButWorking (s t : State) : Prop :=
  t.cfg = s.cfg ∧ t.bri = s.bri ∧ t.dev = s.dev ∧ t.host = s.host ∧ t.env = s.env
  ∧ t.seq.rdy = s.seq.rdy ∧ t.seq.done = s.seq.done ∧ t.seq.inited = s.seq.inited ∧ t.seq.resCode = s.seq.resCode
  ∧ t.seq.resCause = s.seq.resCause ∧ t.seq.resValue = s.seq.resValue ∧ t.seq.pc = s.seq.pc

/-- Exactly `n` SEQ steps were taken on the interface, each with its answer, and recorded. -/
abbrev tookSteps (n : Nat) (s t : State) : Prop :=
  t.env.inputs = s.env.inputs.drop n ∧ t.env.now = s.env.now + n ∧ t.env.model = s.env.model
  ∧ t.env.frees = s.env.frees ∧ (newEntries s t).length = n ∧ t.env.trace = newEntries s t ++ s.env.trace

/-- Under ENV-ANY the controller holds no more than the last transaction configured. -/
abbrev lastConfigured (s t : State) : Prop := t.bri = { s.bri with cfg := t.seq.txn }

/-! ### The invariant -/

/-- The device's array holds addresses `0 .. CAPACITY - 1` only (rules R69, R190). -/
abbrev arrayBounded (s : State) : Prop := ∀ c ∈ s.dev.mem, c.1 < s.cfg.capacity

/-- The operation in progress names addresses of the array only. -/
abbrev opBounded (s : State) : Prop := ∀ a ∈ opTargets s.cfg s.dev.op, a < s.cfg.capacity

/-- What every step keeps: both memories in canonical form; the array within its capacity, and so the operation in
progress; an idle device has no operation; the FIFO within its depth; the cause register one of the values of rule
R231; SEQ ready and `IDLE` between operations. -/
abbrev State.Inv (s : State) : Prop :=
  Mem.wf s.dev.mem = true ∧ Mem.wf s.host.hbuf = true ∧ arrayBounded s ∧ opBounded s
  ∧ (s.dev.busy = false → s.dev.op = .none) ∧ s.bri.fifo.length ≤ s.cfg.fifoDepth
  ∧ s.seq.resCause.toNat ≤ 5 ∧ s.seq.rdy = true ∧ s.seq.pc = []

/-! ### Environments without health -/

/-- ENV-ANY, and no reset of SEQ to come. -/
abbrev Undisturbed (s : State) : Prop := s.env.model = .any ∧ s.host.resetAt = none

/-- The environment's answer at the `k`-th SEQ step from `s`, the first being 0: one of those given, else a free one. -/
def drawAt (s : State) (k : Nat) : Draw := (s.env.inputs.drop k).headD (Config.freeDraw (s.env.now + k))

/-- The byte of the `k`-th answer from `s`. -/
def inputByte (s : State) (k : Nat) : Byte := (drawAt s k).byte

/-! ### What an operation asks of the environment, step by step -/

/-- What SEQ looks for in the environment's answer at one of its steps: nothing; a flag of a wait (rule R218); or, where
the step reads a status byte, the busy bit or the latch bit one way or the other (rules R122, R132). -/
inductive Need where
  | any | busIdle | complete | room | ready | latched | unlatched | deviceBusy | deviceIdle
deriving DecidableEq, Repr

/-- Does an answer give what is looked for? -/
def Need.met (c : Cfg) : Need → Draw → Bool
  | .any, _ => true
  | .busIdle, d => !d.flags.busy
  | .complete, d => d.flags.tc
  | .room, d => d.flags.ft
  | .ready, d => d.flags.ft || d.flags.tc
  | .latched, d => statusWel c d.byte
  | .unlatched, d => !statusWel c d.byte
  | .deviceBusy, d => statusBusy c d.byte
  | .deviceIdle, d => !statusBusy c d.byte

/-- The answers from the `k`-th on give, one after another, what is looked for. -/
def answers (s : State) : Nat → List Need → Bool
  | _, [] => true
  | k, n :: ns => n.met s.cfg (drawAt s k) && answers s (k + 1) ns

/-- ENV-ANY, no reset of SEQ to come, a bus budget, and answers that give what is looked for: every bus wait ends at its
first sample. Nothing is asked of an answer SEQ does not look at. -/
abbrev Answered (needs : List Need) (s : State) : Prop :=
  Undisturbed s ∧ s.cfg.busWaitTicks ≠ 0 ∧ answers s 0 needs = true

/-- `n` rounds of the same needs. -/
def rounds (n : Nat) (l : List Need) : List Need := (List.replicate n l).flatten

/-- ISSUE: bus idle, configure, trigger (rule R219). -/
def needsIssue : List Need := [.busIdle, .any, .any]

/-- SEND_COMMAND: the frame, transfer-complete, clear (rule R131). -/
def needsSend : List Need := needsIssue ++ [.complete, .any]

/-- READ_STATUS: the frame, transfer-complete, clear, the byte (rule R121). -/
def needsStatus (byte : Need) : List Need := needsSend ++ [byte]

/-- A device wait of `n` turns that all find the device busy, each with its tick (rule R122). -/
def needsBusy (n : Nat) : List Need := rounds n (needsStatus .deviceBusy ++ [.any])

/-- A latch poll of `n` turns that all find the latch clear, each with its tick (rule R132). -/
def needsNoLatch (n : Nat) : List Need := rounds n (needsStatus .unlatched ++ [.any])

/-- WRITE_ENABLE whose latch is seen at once (rule R132). -/
def needsEnable : List Need := needsSend ++ needsStatus .latched

/-- RESET_MEMORY of a device that is not busy (rule R133). -/
def needsReset : List Need := needsSend ++ needsSend ++ needsStatus .deviceIdle

/-- READ up to its completion wait, `n` bytes moved (rule R141). -/
def needsRead (n : Nat) : List Need := needsIssue ++ rounds n [.ready, .any]

/-- A chunk of WRITE up to its transfer-complete wait, `m` bytes moved (rule R151). -/
def needsFill (m : Nat) : List Need := needsEnable ++ needsIssue ++ rounds m [.room, .any]

/-- A chunk of WRITE of `m` bytes (rule R151). -/
def needsChunk (m : Nat) : List Need := needsFill m ++ [.complete, .any] ++ needsStatus .deviceIdle

/-- CHIP_ERASE, and ERASE up to its closing wait (rules R161, R162). -/
def needsChip : List Need := needsEnable ++ needsSend ++ needsStatus .deviceIdle

/-- ERASE of a block (rule R161). -/
def needsErase : List Need := needsChip ++ [.busIdle, .any]

/-! ### Ready reference environments -/

/-- Under ENV-REF: the controller is enabled, holds no stale flag and no byte, and is idle or has only to end a drained
read frame. Every successful operation leaves it so. -/
abbrev BusSettled (s : State) : Prop :=
  s.bri.en = true ∧ s.bri.tc = false ∧ s.bri.fifo = []
  ∧ (s.bri.busy = true → s.bri.rem = 0 ∧ s.bri.cfg.direction = .read)

/-- The device has no operation in progress. -/
abbrev DeviceIdle (s : State) : Prop := s.dev.busy = false ∧ s.dev.op = .none

/-- ENV-REF, ready for a data claim: no reset to come, the bus settled, the device idle, the parameters well formed and
the array within the 24-bit address of a frame. -/
abbrev RefReady (s : State) : Prop :=
  s.env.model = .ref ∧ s.host.resetAt = none ∧ s.seq.inited = true ∧ BusSettled s ∧ DeviceIdle s
  ∧ s.cfg.wf = true ∧ s.cfg.capacity ≤ 2 ^ 24

/-- The answer of a prompt reference environment: after every SEQ step the controller moves up to four bytes and ends its
frame, the device ends its operation, and the controller drains (the schedule PROMPT-0 of `95_test_vectors.md`). -/
def promptDraw : Draw :=
  { moves := [.bri, .bri, .bri, .bri, .dev, .bri], flags := { busy := false, tc := false, ft := false }, byte := 0 }

/-! ### The variant table of an erase (rule R160) -/

/-- The opcode a variant selects. -/
def variantOp (c : Cfg) : BlockSize → Byte
  | .b4K => c.opErase4K
  | .b32K => c.opErase32K
  | .b64K => c.opErase64K
  | .all => c.opBulkErase

/-- The budget in milliseconds a variant selects. -/
def variantMs (c : Cfg) : BlockSize → Nat
  | .b4K => c.maxWaitSubsectorMs
  | .b32K => c.maxWaitSectorMs
  | .b64K => c.maxWaitSectorMs
  | .all => c.maxWaitBulkMs

/-- The bytes a variant erases, as the device has them (rules R198 to R202). -/
def variantSize (c : Cfg) : BlockSize → Nat
  | .b4K => c.subsectorSize
  | .b32K => c.block32Size
  | .b64K => c.sectorSize
  | .all => c.capacity

/-- The frame that erases: the bulk erase for the whole-chip variant, else the variant's opcode at the address. -/
def eraseTxn (c : Cfg) (v : BlockSize) (a : Addr24) : Txn :=
  if v = .all then txnCmd c.opBulkErase else txnCmda (variantOp c v) a

/-- The budget in ticks a variant selects. -/
def variantTicks (c : Cfg) (v : BlockSize) : Word := BitVec.ofNat 32 (variantMs c v * c.ticksPerMs)

/-! ### Chunks of a write (rule R152) -/

/-- The number of chunks, `K = (address + length - 1) / P - address / P + 1` (rule R152 (4)). -/
def chunkCount (p addr len : Nat) : Nat := (addr + len - 1) / p - addr / p + 1

/-- The start of chunk `j`: the address, then the page boundaries. -/
def chunkStart (p addr j : Nat) : Nat := if j = 0 then addr else (addr / p + j) * p

/-- The end of chunk `j`, exclusive: the next page boundary, or the end of the range. -/
def chunkEnd (p addr len j : Nat) : Nat := min ((addr / p + j + 1) * p) (addr + len)

/-- The size of chunk `j`. -/
def chunkSize (p addr len j : Nat) : Nat := chunkEnd p addr len j - chunkStart p addr j

/-- The program frame of chunk `j` (rule R151 line 2). -/
def chunkTxn (c : Cfg) (addr len j : Nat) : Txn :=
  txnQpp c (BitVec.ofNat 24 (chunkStart c.pageSize addr j)) (BitVec.ofNat 32 (chunkSize c.pageSize addr len j))

/-- The frames of the first `k` chunks of a write whose waits end at once: per chunk WREN, RDSR, QPP, RDSR (rule R151). -/
def chunkFrames (c : Cfg) (addr len k : Nat) : List Txn :=
  (List.range k).flatMap fun j => [txnCmd c.opWriteEnable, txnRdsr c, chunkTxn c addr len j, txnRdsr c]

/-- The frames of a write that succeeds at once. -/
def writeFrames (c : Cfg) (addr len : Nat) : List Txn := chunkFrames c addr len (chunkCount c.pageSize addr len)

/-- What the first `k` chunks of a write look for. -/
def needsChunks (c : Cfg) (addr len k : Nat) : List Need :=
  (List.range k).flatMap fun j => needsChunk (chunkSize c.pageSize addr len j)

/-- What a write looks for. -/
def needsWrite (c : Cfg) (addr len : Nat) : List Need := needsChunks c addr len (chunkCount c.pageSize addr len)

/-- The frames of a block erase that succeeds at once: WREN, RDSR, the erase, RDSR (rule R161). -/
def eraseFrames (c : Cfg) (op : Byte) (a : Addr24) : List Txn :=
  [txnCmd c.opWriteEnable, txnRdsr c, txnCmda op a, txnRdsr c]

/-- The first byte of an erase range: the masked start, less its remainder by the subsector size (rules R98, R184). -/
def rangeStart (c : Cfg) (first : Word) : Nat :=
  (first &&& c.abiAddrMask).toNat - (first &&& c.abiAddrMask).toNat % c.subsectorSize

/-- The last byte of an erase range: the masked end (rule R184). -/
def rangeEnd (c : Cfg) (last : Word) : Nat := (last &&& c.abiAddrMask).toNat

/-- The number of blocks of an erase range (rule R184 (a)). -/
def blockCount (c : Cfg) (first last : Word) : Nat :=
  if rangeStart c first ≤ rangeEnd c last then
    rangeEnd c last / c.subsectorSize - rangeStart c first / c.subsectorSize + 1
  else 0

/-- A WRITE that stopped in its chunk `i` after `k` bytes of it, with a stage code and a cause: the frames of the chunks
before it and those given; the bytes in order; the registers of the loop as the chunk had them; value 0 (rules R151,
R235, R237). -/
abbrev writeStopped (addr len : Word) (i k : Nat) (code : Byte) (cause : Cause) (frames : List Txn) (s t : State) : Prop :=
  let p := s.cfg.pageSize
  let d := chunkStart p addr.toNat i - addr.toNat
  t.seq.resCode = code ∧ t.seq.resCause = cause.code ∧ t.seq.resValue = 0 ∧ t.seq.done = true ∧ t.seq.rdy = true
  ∧ t.seq.pc = [] ∧ t.seq.curAddr = addr + BitVec.ofNat 32 d ∧ t.seq.endAddr = addr + len
  ∧ t.seq.bufOff = BitVec.ofNat 32 d ∧ t.seq.curSize = BitVec.ofNat 32 (chunkSize p addr.toNat len.toNat i)
  ∧ t.seq.erAddr = s.seq.erAddr ∧ t.seq.erEnd = s.seq.erEnd ∧ t.seq.inited = s.seq.inited
  ∧ newFrames s t = chunkFrames s.cfg addr.toNat len.toNat i ++ frames
  ∧ bytesWritten (newCalls s t) = (List.range (d + k)).map (fun x => memRead s.host.hbuf x)
  ∧ (newCalls s t).getLast? = some .clearAll ∧ sameSurroundings s t

/-! ### Bounds (rule R272) -/

/-- `S`: a status read. -/
def boundStatus (c : Cfg) : Nat := 4 * c.busWaitTicks.toNat + 4

/-- `C`: a command frame. -/
def boundCommand (c : Cfg) : Nat := 4 * c.busWaitTicks.toNat + 3

/-- A device wait of `n` ticks. -/
def boundNotBusy (c : Cfg) (n : Nat) : Nat := n * (boundStatus c + 1)

/-- `E`: a write enable. -/
def boundEnable (c : Cfg) : Nat := boundCommand c + c.welRetry.toNat * (boundStatus c + 1)

/-- The two reset frames and the wait. -/
def boundReset (c : Cfg) : Nat := 2 * boundCommand c + boundNotBusy c c.resetWaitTicks.toNat

/-- A WRITE: its chunks' fixed parts, and its bytes. -/
def boundWrite (c : Cfg) (addr len : Nat) : Nat :=
  if len = 0 then 0
  else
    chunkCount c.pageSize addr len
        * (boundEnable c + (2 * c.busWaitTicks.toNat + 2) + (2 * c.busWaitTicks.toNat + 1)
           + boundNotBusy c c.programWaitTicks.toNat)
      + len * (2 * c.busWaitTicks.toNat + 1)

/-- An ERASE of one block with a budget of `n` ticks. -/
def boundErase (c : Cfg) (n : Nat) : Nat :=
  boundEnable c + boundCommand c + boundNotBusy c n + 2 * c.busWaitTicks.toNat + 1

/-- CHIP_ERASE. -/
def boundChip (c : Cfg) : Nat :=
  boundEnable c + boundCommand c + boundNotBusy c (ticksOfMs c c.maxWaitBulkMs).toNat

/-- The bound of rule R272 on the SEQ steps of an operation, CLEANUP and the completing step not counted. -/
def stepBound (c : Cfg) : Instr → Nat
  | .readStatus => boundStatus c
  | .waitNotBusy n => boundNotBusy c n.toNat
  | .sendCommand _ _ => boundCommand c
  | .writeEnable => boundEnable c
  | .resetMemory => boundReset c
  | .read _ n => 2 * c.busWaitTicks.toNat + 2 + n.toNat * (2 * c.busWaitTicks.toNat + 1) + 2 * c.busWaitTicks.toNat + 1
  | .write a n => boundWrite c a.toNat n.toNat
  | .erase _ .b4K => boundErase c (ticksOfMs c c.maxWaitSubsectorMs).toNat
  | .erase _ .b32K => boundErase c (ticksOfMs c c.maxWaitSectorMs).toNat
  | .erase _ .b64K => boundErase c (ticksOfMs c c.maxWaitSectorMs).toNat
  | .erase _ .all => boundChip c
  | .chipErase => boundChip c
  | .initBus => boundReset c + 2
  | .deinitBus => 1
  | .abiInitialize => boundReset c + 2
  | .abiProgram a n => boundWrite c (abiMask c a).toNat n.toNat
  | .abiEraseRange first last => blockCount c first last * boundErase c (ticksOfMs c c.maxWaitSubsectorMs).toNat
  | .abiVerify => 0
  | .rdsr | .wren | .wrdi | .rsten | .rst | .qread _ _ | .qpp _ _ | .se4k _ | .be32k _ | .be64k _ | .ce => 0

/-! ### The result table (rule R232) -/

/-- The stage codes and causes of a write-enable stage, a device wait and a bus wait. -/
def enableResults (code : Byte) : List (Byte × Cause) := [(code, .busTimeout), (code, .writeEnableFailed)]
def deviceResults (code : Byte) : List (Byte × Cause) := [(code, .deviceTimeout), (code, .busTimeout)]

/-- The failures of RESET_MEMORY and INIT_BUS, of WRITE, of a chip erase and of a block erase (rule R232). -/
def resetResults : List (Byte × Cause) := [(1, .busTimeout), (2, .busTimeout)] ++ deviceResults 3
def writeResults : List (Byte × Cause) :=
  enableResults 1 ++ [(2, .busTimeout), (3, .busTimeout), (4, .busTimeout)] ++ deviceResults 5
def chipResults : List (Byte × Cause) := enableResults 1 ++ [(2, .busTimeout)] ++ deviceResults 3
def eraseResults : List (Byte × Cause) := chipResults ++ [(4, .busTimeout)]

/-- An ABI operation reports code 1 with the core operation's cause (rules R180, R232). -/
def abiResults (l : List (Byte × Cause)) : List (Byte × Cause) := l.map fun p => (1, p.2)

/-- The refusal of rule R26. -/
def gateResult : List (Byte × Cause) := [(0xFE, .notInitialised)]

/-- The complete list of an operation's failure results (rule R232). -/
def failureResults : Instr → List (Byte × Cause)
  | .readStatus => [(1, .busTimeout)] ++ gateResult
  | .waitNotBusy _ => [(1, .busTimeout), (2, .deviceTimeout)] ++ gateResult
  | .sendCommand _ _ => [(1, .busTimeout)] ++ gateResult
  | .writeEnable => [(1, .busTimeout), (2, .busTimeout), (3, .writeEnableFailed)] ++ gateResult
  | .resetMemory => resetResults ++ gateResult
  | .read _ _ => [(1, .busTimeout), (2, .busTimeout), (3, .busTimeout)] ++ gateResult
  | .write _ _ => writeResults ++ gateResult
  | .erase _ .all => chipResults ++ gateResult
  | .erase _ _ => eraseResults ++ gateResult
  | .chipErase => chipResults ++ gateResult
  | .initBus => resetResults
  | .deinitBus => []
  | .abiInitialize => abiResults resetResults
  | .abiProgram _ _ => abiResults writeResults ++ gateResult
  | .abiEraseRange _ _ => abiResults eraseResults ++ gateResult
  | .abiVerify => []
  | .rdsr | .wren | .wrdi | .rsten | .rst | .qread _ _ | .qpp _ _ | .se4k _ | .be32k _ | .be64k _ | .ce => []

/-- The result registers show success, or one of the operation's failures with value 0. -/
abbrev resultListed (i : Instr) (q : Seq) : Prop :=
  (q.resCode = 0 ∧ q.resCause = 0)
  ∨ ((q.resCode, q.resCause) ∈ (failureResults i).map (fun p => (p.1, p.2.code)) ∧ q.resValue = 0)

/-! ### Which frames an operation may issue (rules R94, R104, R161, R162) -/

/-- The opcodes of the frames an operation issues (rules R94, R104). -/
def frameOpcodes (c : Cfg) : Instr → List Byte
  | .readStatus => [c.opReadStatus]
  | .waitNotBusy _ => [c.opReadStatus]
  | .sendCommand op _ => [op]
  | .writeEnable => [c.opWriteEnable, c.opReadStatus]
  | .resetMemory => [c.opResetEnable, c.opResetMemory, c.opReadStatus]
  | .read _ _ => [c.opQuadRead]
  | .write _ _ => [c.opWriteEnable, c.opReadStatus, c.opQuadProgram]
  | .erase _ .b4K => [c.opWriteEnable, c.opReadStatus, c.opErase4K]
  | .erase _ .b32K => [c.opWriteEnable, c.opReadStatus, c.opErase32K]
  | .erase _ .b64K => [c.opWriteEnable, c.opReadStatus, c.opErase64K]
  | .erase _ .all => [c.opWriteEnable, c.opReadStatus, c.opBulkErase]
  | .chipErase => [c.opWriteEnable, c.opReadStatus, c.opBulkErase]
  | .initBus => [c.opResetEnable, c.opResetMemory, c.opReadStatus]
  | .deinitBus => []
  | .abiInitialize => [c.opResetEnable, c.opResetMemory, c.opReadStatus]
  | .abiProgram _ _ => [c.opWriteEnable, c.opReadStatus, c.opQuadProgram]
  | .abiEraseRange _ _ => [c.opWriteEnable, c.opReadStatus, c.opErase4K]
  | .abiVerify => []
  | .rdsr | .wren | .wrdi | .rsten | .rst | .qread _ _ | .qpp _ _ | .se4k _ | .be32k _ | .be64k _ | .ce => []

/-! ### The write-enable handshake (rules R75, R276) -/

/-- Does the frame program or erase? -/
def consumesLatch (c : Cfg) (t : Txn) : Bool :=
  [c.opQuadProgram, c.opErase4K, c.opErase32K, c.opErase64K, c.opBulkErase].contains t.opcode

/-- The last byte read, in a list of calls, newest first. -/
def lastByteRead : List BusCall → Option Byte
  | [] => none
  | .readByte b :: _ => some b
  | _ :: older => lastByteRead older

/-- In a list of calls, newest first, every program or erase frame comes after a byte read with the latch bit set. -/
def latchConfirmed (c : Cfg) : List BusCall → Bool
  | [] => true
  | .configure t :: older =>
    (!consumesLatch c t || (lastByteRead older).any (fun b => statusWel c b)) && latchConfirmed c older
  | _ :: older => latchConfirmed c older

/-! ### The device's data phase -/

/-- The next `n` bytes the device sends for the read frame on the bus. -/
def supplyMany : Nat → State → List Byte × State
  | 0, s => ([], s)
  | n + 1, s =>
    let p := supplyByte s
    let q := supplyMany n p.2
    (p.1 :: q.1, q.2)

end Sys2Proof.Machine
end

