-- ==== Sys2Proof/Certificates/Slice0/Obligations.lean ====
section
/-! DEFINITION. The statements for the provers. Each docstring names the rules of the spec it rests on; a statement that
rests on a choice of the model names the log entry. -/

open Sys2Proof Sys2Proof.Machine

/-! ### Encoding -/

/-- Words written out from the tables of rules R90, R91, R95, R97 (and one frame of rule R94 under the vector-only
configuration CFG-T) decode to the instructions they stand for. -/
def Obligations.DecodeWrittenOutWords : Prop :=
  decodeHost 0x00000000000000000000000001 = .ok .readStatus
  ∧ decodeHost 0x00000003000000000000000002 = .ok (.waitNotBusy 3)
  ∧ decodeHost 0x00000120000000000000100003 = .ok (.sendCommand 0x20 (some 0x1000))
  ∧ decodeHost 0x00000004000000000000100003 = .ok (.sendCommand 0x04 none)
  ∧ decodeHost 0x00000000000000040000100006 = .ok (.read 0x1000 4)
  ∧ decodeHost 0x000000000000012C000000C807 = .ok (.write 0xC8 300)
  ∧ decodeHost 0x00000002000000000000100008 = .ok (.erase 0x1000 .b64K)
  ∧ decodeHost 0x00002FFF000000000000105012 = .ok (.abiEraseRange 0x1050 0x2FFF)
  ∧ decodeHost 0x0000000000000000000000000C = .error (.illegalCommand 0x0C)
  ∧ decodeFrame {} { opcode := 0x20, addr := some 0x001000, addrLines := .one, dummyCycles := 0, dataLines := .absent
                     data := .none } = .ok (.se4k 0x001000)

/-- Rule R95 with the field places of rules R90, R91 and R97, in bits of the 104-bit word: each operation code reads its
operands from their bits and from no others. -/
def Obligations.HostDecodeReadsOperands : Prop :=
  ∀ w : HostWord, let op := w.extractLsb' 0 8; let addr := w.extractLsb' 8 32; let len := w.extractLsb' 40 32
    (op = 0x01 → decodeHost w = .ok .readStatus)
    ∧ (op = 0x02 → decodeHost w = .ok (.waitNotBusy (w.extractLsb' 72 32)))
    ∧ (op = 0x03 → decodeHost w =
        .ok (.sendCommand (w.extractLsb' 72 8) (if w.getLsbD 80 then some addr else none)))
    ∧ (op = 0x04 → decodeHost w = .ok .writeEnable)
    ∧ (op = 0x05 → decodeHost w = .ok .resetMemory)
    ∧ (op = 0x06 → decodeHost w = .ok (.read addr len))
    ∧ (op = 0x07 → decodeHost w = .ok (.write addr len))
    ∧ (op = 0x08 → w.extractLsb' 72 2 = 0 → decodeHost w = .ok (.erase addr .b4K))
    ∧ (op = 0x08 → w.extractLsb' 72 2 = 1 → decodeHost w = .ok (.erase addr .b32K))
    ∧ (op = 0x08 → w.extractLsb' 72 2 = 2 → decodeHost w = .ok (.erase addr .b64K))
    ∧ (op = 0x08 → w.extractLsb' 72 2 = 3 → decodeHost w = .ok (.erase addr .all))
    ∧ (op = 0x09 → decodeHost w = .ok .chipErase)
    ∧ (op = 0x0A → decodeHost w = .ok .initBus)
    ∧ (op = 0x0B → decodeHost w = .ok .deinitBus)
    ∧ (op = 0x10 → decodeHost w = .ok .abiInitialize)
    ∧ (op = 0x11 → decodeHost w = .ok (.abiProgram addr len))
    ∧ (op = 0x12 → decodeHost w = .ok (.abiEraseRange addr (w.extractLsb' 72 32)))
    ∧ (op = 0x13 → decodeHost w = .ok .abiVerify)

/-- Decoding the host word of a host operation gives the operation back (rules R90, R91, R95, R97). -/
def Obligations.HostDecodeEncode : Prop := ∀ (i : Instr) (w : HostWord), encodeHost i = some w → decodeHost w = .ok i

/-- Decoding the frame of a well-formed flash command, under well-formed parameters, gives the command back (rules R94,
R96): the eleven opcodes are told apart whatever their values. -/
def Obligations.FrameDecodeEncode : Prop :=
  ∀ (c : Cfg) (i : Instr) (f : Frame), c.wf = true → i.wf c = true → encodeFrame c i = some f → decodeFrame c f = .ok i

/-- A frame the device accepts as a command, under well-formed parameters, is that command's frame, bit for bit, but for
the line count of a program's address, of which the device accepts either (decision D16). -/
def Obligations.FrameDecodeSound : Prop :=
  ∀ (c : Cfg) (i : Instr) (f : Frame), c.wf = true → decodeFrame c f = .ok i →
    ∃ g, encodeFrame c i = some g ∧ (g = f ∨ ∃ a d, i = .qpp a d ∧ g = { f with addrLines := c.progAddrLines })

/-- An accepted command whose code is not in the table of rule R95 completes at once with code 0xFF, cause
IllegalCommand, value 0 and no step on the interface, whatever `INITED` is (rule R99). -/
def Obligations.IllegalCommandCompletes : Prop :=
  ∀ (s : State) (w : HostWord) (rest : List HostAct), s.seq.rdy = true → s.host.script = .command w :: rest →
    hostOp w ∉ ([0x01, 0x02, 0x03, 0x04, 0x05, 0x06, 0x07, 0x08, 0x09, 0x0A, 0x0B, 0x10, 0x11, 0x12, 0x13] : List Byte) →
    ∃ t, step s = .next t
      ∧ t.seq = { s.seq with cmdOp := hostOp w, cmdAddr := hostAddr w, cmdLen := hostLen w, cmdArg := hostArg w
                             resCode := 0xFF, resCause := 5, resValue := 0, done := true, rdy := true, pc := [] }
      ∧ t.cfg = s.cfg ∧ t.bri = s.bri ∧ t.dev = s.dev ∧ t.env = s.env ∧ t.host = { s.host with script := rest }

/-! ### Reset, the port, the invariant -/

/-- The values rule R37 gives for reset; the registers it leaves unspecified are not stated. -/
def Obligations.ResetState : Prop :=
  State.reset.seq.pc = [] ∧ State.reset.seq.rdy = true ∧ State.reset.seq.done = false ∧ State.reset.seq.inited = false
  ∧ State.reset.seq.resCode = 0 ∧ State.reset.seq.resCause = 0 ∧ State.reset.seq.resValue = 0
  ∧ State.reset.cfg.wf = true

/-- The machine after reset meets the invariant. -/
def Obligations.InvAtReset : Prop := State.reset.Inv

/-- Every step keeps the invariant `State.Inv` of Safety, in both environment models. -/
def Obligations.StepKeepsInv : Prop := ∀ s t : State, s.Inv → step s = .next t → t.Inv

/-- No step and no instruction writes the parameters (rule R31: "no operation writes it"). -/
def Obligations.NothingWritesCfg : Prop :=
  (∀ s t : State, step s = .next t → t.cfg = s.cfg) ∧ ∀ (i : Instr) (s t : State), exec i s = .next t → t.cfg = s.cfg

/-- A command presented to a ready SEQ is latched into the four command registers, RDY and DONE fall, and the step is the
decoded operation (rule R25); nothing else changes before it runs. -/
def Obligations.StepRunsPresentedCommand : Prop :=
  ∀ (s : State) (w : HostWord) (i : Instr) (rest : List HostAct), s.seq.rdy = true → decodeHost w = .ok i →
    s.host.script = .command w :: rest →
    step s = exec i ((s.withHost { s.host with script := rest }).withSeq
      { s.seq with cmdOp := hostOp w, cmdAddr := hostAddr w, cmdLen := hostLen w, cmdArg := hostArg w
                   rdy := false, done := false })

/-- A byte the host stores in its buffer between operations changes that byte only (rule R79; log entry 24), and with
nothing to do under ENV-ANY a step changes nothing but the step count (rule R260). -/
def Obligations.HostStoresAndIdleTurns : Prop :=
  (∀ (s : State) (off : Word) (b : Byte) (rest : List HostAct), s.seq.rdy = true → Mem.wf s.host.hbuf = true →
    s.host.script = .store off b :: rest →
    ∃ t, step s = .next t ∧ t.host.script = rest ∧ t.host.resetAt = s.host.resetAt ∧ t.seq = s.seq ∧ t.cfg = s.cfg
      ∧ t.bri = s.bri ∧ t.dev = s.dev ∧ t.env = s.env
      ∧ ∀ k, memRead t.host.hbuf k = if k = off.toNat then b else memRead s.host.hbuf k)
  ∧ ∀ s : State, s.seq.rdy = true → s.seq.pc = [] → s.host.script = [] → Undisturbed s →
    ∃ t, step s = .next t ∧ t.seq = s.seq ∧ t.cfg = s.cfg ∧ t.bri = s.bri ∧ t.dev = s.dev ∧ t.host = s.host
      ∧ t.env = { s.env with inputs := s.env.inputs.tail, now := s.env.now + 1 }

/-- While `INITED` is 0 every flash operation completes at once with code 0xFE, cause NotInitialised, and no primitive
(rule R26). -/
def Obligations.NotInitialisedRefusal : Prop :=
  ∀ (i : Instr) (s : State), isGated i = true → s.seq.inited = false →
    ∃ t, exec i s = .next t
      ∧ t.seq = { s.seq with resCode := 0xFE, resCause := 4, resValue := 0, done := true, rdy := true, pc := [] }
      ∧ t.cfg = s.cfg ∧ t.bri = s.bri ∧ t.dev = s.dev ∧ t.host = s.host ∧ t.env = s.env

/-- `INITED` is 1 after a successful INIT_BUS or ABI_INITIALIZE, 0 after a failed one and after DEINIT_BUS, and no other
operation changes it (rule R26), when no reset of SEQ is to come. -/
def Obligations.InitedFlag : Prop :=
  ∀ (i : Instr) (s t : State), s.host.resetAt = none → exec i s = .next t →
    ((i = .initBus ∨ i = .abiInitialize) → t.seq.inited = decide (t.seq.resCode = 0))
    ∧ (i = .deinitBus → t.seq.inited = false)
    ∧ (i ≠ .initBus → i ≠ .abiInitialize → i ≠ .deinitBus → t.seq.inited = s.seq.inited)

/-! ### Every operation ends and reports -/

/-- Under ENV-ANY every host operation completes, whatever the flags and bytes: SEQ is ready, IDLE and DONE (rules R28,
R272, R235). -/
def Obligations.EveryOperationCompletes : Prop :=
  ∀ (i : Instr) (s : State), isHostOp i = true → s.cfg.wf = true → Undisturbed s →
    ∃ t, exec i s = .next t ∧ t.seq.rdy = true ∧ t.seq.done = true ∧ t.seq.pc = [] ∧ t.cfg = s.cfg
      ∧ t.dev = s.dev

/-- A completed operation reports success or one of its own failures, as rule R232 lists them, in both environments. -/
def Obligations.ResultsAreListed : Prop :=
  ∀ (i : Instr) (s t : State), isHostOp i = true → s.host.resetAt = none → exec i s = .next t →
    resultListed i t.seq ∧ t.seq.done = true ∧ t.seq.rdy = true ∧ t.seq.pc = []

/-- No operation takes more SEQ steps than rule R272 says, CLEANUP's one included, in both environments. -/
def Obligations.OperationStepBound : Prop :=
  ∀ (i : Instr) (s t : State), s.cfg.wf = true → exec i s = .next t →
    t.env.now ≤ s.env.now + stepBound s.cfg i + 1

/-- WAIT_FLAG (rules R12, R218) under ENV-ANY: it returns `Ok` at the first sample that meets the condition, having
counted the earlier ones off TMO_BUS, and `Timeout` after exactly N samples and N ticks; it writes TMO_BUS only. -/
def Obligations.WaitFlagCounts : Prop :=
  ∀ (mask : FlagSet) (e : Bool) (n : Word) (s : State), Undisturbed s →
    (∀ j, j < n.toNat → (∀ k, k < j → flagsMet mask e (drawAt s (2 * k)).flags = false) →
      flagsMet mask e (drawAt s (2 * j)).flags = true →
      ∃ t, waitFlag mask e n s = .ok .met t ∧ t.seq = { s.seq with tmoBus := n - BitVec.ofNat 32 j, pc := t.seq.pc }
        ∧ t.bri = s.bri ∧ sameSurroundings s t ∧ tookSteps (2 * j + 1) s t ∧ tickCount (newCalls s t) = j)
    ∧ ((∀ k, k < n.toNat → flagsMet mask e (drawAt s (2 * k)).flags = false) →
      ∃ t, waitFlag mask e n s = .ok .timeout t ∧ t.seq = { s.seq with tmoBus := 0, pc := t.seq.pc }
        ∧ t.bri = s.bri ∧ sameSurroundings s t ∧ tookSteps (2 * n.toNat) s t ∧ tickCount (newCalls s t) = n.toNat)

/-! ### What each host operation does when its waits end at once, and when one never does -/

/-- READ_STATUS (rule R121): its six steps, its value, its registers, and nothing else. -/
def Obligations.ReadStatusCompletes : Prop :=
  ∀ s : State, Answered (needsStatus .any) s → s.seq.inited = true →
    ∃ t, exec .readStatus s = .next t
      ∧ t.seq = okSeq ((inputByte s 5).setWidth 64)
          { s.seq with txn := txnRdsr s.cfg, tmoBus := s.cfg.busWaitTicks, srSnap := inputByte s 5 }
      ∧ newCalls s t = [.flags (drawAt s 0).flags, .configure (txnRdsr s.cfg), .trigger, .flags (drawAt s 3).flags,
          .clearTc, .readByte (inputByte s 5)]
      ∧ sameSurroundings s t ∧ lastConfigured s t ∧ tookSteps 6 s t

/-- WAIT_NOT_BUSY (rule R122) when the device answers busy `k` times and then not busy, within the budget: `k + 1` status
reads, `k` ticks, the last status byte as value, `TMO_DEV` counted down by `k`. -/
def Obligations.WaitNotBusyCompletes : Prop :=
  ∀ (s : State) (n : Word) (k : Nat), Answered (needsBusy k ++ needsStatus .deviceIdle) s → s.seq.inited = true →
    k < n.toNat →
    ∃ t, exec (.waitNotBusy n) s = .next t
      ∧ t.seq = okSeq ((inputByte s (7 * k + 5)).setWidth 64)
          { s.seq with txn := txnRdsr s.cfg, tmoBus := s.cfg.busWaitTicks, tmoDev := n - BitVec.ofNat 32 k
                       srSnap := inputByte s (7 * k + 5) }
      ∧ newFrames s t = List.replicate (k + 1) (txnRdsr s.cfg) ∧ tickCount (newCalls s t) = k
      ∧ sameSurroundings s t ∧ lastConfigured s t ∧ tookSteps (7 * k + 6) s t

/-- A device that stays busy for a whole device wait (rule R122 (a), (b)): exactly N status reads and N ticks, then CLEANUP,
cause DeviceTimeout; with N = 0 no status read. It is code 2 of WAIT_NOT_BUSY, and code 3 of RESET_MEMORY (rule R133) and
of an erase of any variant, with that variant's budget (rules R160, R161, R162). -/
def Obligations.WaitNotBusyTimesOut : Prop :=
  ∀ s : State, s.seq.inited = true →
    (∀ n : Word, Answered (needsBusy n.toNat) s →
      ∃ t, exec (.waitNotBusy n) s = .next t
        ∧ t.seq.resCode = 2 ∧ t.seq.resCause = 2 ∧ t.seq.resValue = 0 ∧ t.seq.done = true ∧ t.seq.rdy = true
        ∧ t.seq.tmoDev = 0 ∧ newFrames s t = List.replicate n.toNat (txnRdsr s.cfg)
        ∧ tickCount (newCalls s t) = n.toNat ∧ (newCalls s t).getLast? = some .clearAll
        ∧ sameSurroundings s t ∧ tookSteps (7 * n.toNat + 1) s t)
    ∧ (let n := s.cfg.resetWaitTicks.toNat;
      Answered (needsSend ++ needsSend ++ needsBusy n) s →
      ∃ t, exec .resetMemory s = .next t
        ∧ t.seq.resCode = 3 ∧ t.seq.resCause = 2 ∧ t.seq.resValue = 0 ∧ t.seq.done = true ∧ t.seq.rdy = true
        ∧ t.seq.tmoDev = 0 ∧ tickCount (newCalls s t) = n
        ∧ newFrames s t =
            [txnCmd s.cfg.opResetEnable, txnCmd s.cfg.opResetMemory] ++ List.replicate n (txnRdsr s.cfg)
        ∧ (newCalls s t).getLast? = some .clearAll ∧ sameSurroundings s t ∧ tookSteps (10 + 7 * n + 1) s t)
    ∧ ∀ (i : Instr) (addr : Word) (v : BlockSize), i = .erase addr v ∨ i = .chipErase ∧ v = .all →
      let n := (variantTicks s.cfg v).toNat
      s.cfg.welRetry ≠ 0 → Answered (needsEnable ++ needsSend ++ needsBusy n) s →
      ∃ t, exec i s = .next t
        ∧ t.seq.resCode = 3 ∧ t.seq.resCause = 2 ∧ t.seq.resValue = 0 ∧ t.seq.done = true ∧ t.seq.rdy = true
        ∧ t.seq.tmoDev = 0 ∧ tickCount (newCalls s t) = n
        ∧ newFrames s t = [txnCmd s.cfg.opWriteEnable, txnRdsr s.cfg, eraseTxn s.cfg v (addr.setWidth 24)]
            ++ List.replicate n (txnRdsr s.cfg)
        ∧ (newCalls s t).getLast? = some .clearAll ∧ sameSurroundings s t ∧ tookSteps (16 + 7 * n + 1) s t

/-- SEND_COMMAND (rule R131): any opcode, with and without an address, of which the low 24 bits go out. Without one, the
address field of TXN is the free value of log entry 37 (DESIGN CHOICE: the spec gives it none). -/
def Obligations.SendCommandCompletes : Prop :=
  ∀ (s : State) (op : Byte) (a : Option Word), Answered needsSend s → s.seq.inited = true →
    let frame : Txn := match a with
      | none => txnCmd op
      | some x => txnCmda op (x.setWidth 24)
    ∃ t, exec (.sendCommand op a) s = .next t
      ∧ t.seq = okSeq 0 { s.seq with txn := frame, tmoBus := s.cfg.busWaitTicks }
      ∧ newCalls s t = [.flags (drawAt s 0).flags, .configure frame, .trigger, .flags (drawAt s 3).flags, .clearTc]
      ∧ sameSurroundings s t ∧ lastConfigured s t ∧ tookSteps 5 s t

/-- WRITE_ENABLE (rule R132) when the latch is seen at the status read after `k` without it, within the budget: one
write-enable frame, `k + 1` status reads, `k` ticks. -/
def Obligations.WriteEnableCompletes : Prop :=
  ∀ (s : State) (k : Nat), Answered (needsSend ++ needsNoLatch k ++ needsStatus .latched) s → s.seq.inited = true →
    k < s.cfg.welRetry.toNat →
    ∃ t, exec .writeEnable s = .next t
      ∧ t.seq = okSeq 0
          { s.seq with txn := txnRdsr s.cfg, tmoBus := s.cfg.busWaitTicks
                       tmoDev := s.cfg.welRetry - BitVec.ofNat 32 k, srSnap := inputByte s (7 * k + 10) }
      ∧ newFrames s t = txnCmd s.cfg.opWriteEnable :: List.replicate (k + 1) (txnRdsr s.cfg)
      ∧ tickCount (newCalls s t) = k ∧ sameSurroundings s t ∧ lastConfigured s t ∧ tookSteps (7 * k + 11) s t

/-- WRITE_ENABLE (rule R132) when the latch never appears: code 3, cause WriteEnableFailed, after `WEL_RETRY` status reads
and one CLEANUP; with `WEL_RETRY = 0` after the write-enable frame alone. -/
def Obligations.WriteEnableNeverLatched : Prop :=
  ∀ s : State, Answered (needsSend ++ needsNoLatch s.cfg.welRetry.toNat) s → s.seq.inited = true →
    ∃ t, exec .writeEnable s = .next t
      ∧ t.seq.resCode = 3 ∧ t.seq.resCause = 3 ∧ t.seq.resValue = 0 ∧ t.seq.done = true ∧ t.seq.rdy = true
      ∧ newFrames s t = txnCmd s.cfg.opWriteEnable :: List.replicate s.cfg.welRetry.toNat (txnRdsr s.cfg)
      ∧ tickCount (newCalls s t) = s.cfg.welRetry.toNat ∧ sameSurroundings s t
      ∧ tookSteps (7 * s.cfg.welRetry.toNat + 6) s t

/-- RESET_MEMORY (rule R133) of a device that the status read finds not busy: reset-enable, reset, and that status read,
with nothing between the two reset frames. -/
def Obligations.ResetMemoryCompletes : Prop :=
  ∀ s : State, Answered needsReset s → s.cfg.resetWaitTicks ≠ 0 → s.seq.inited = true →
    ∃ t, exec .resetMemory s = .next t
      ∧ t.seq = okSeq 0
          { s.seq with txn := txnRdsr s.cfg, tmoBus := s.cfg.busWaitTicks, tmoDev := s.cfg.resetWaitTicks
                       srSnap := inputByte s 15 }
      ∧ newFrames s t = [txnCmd s.cfg.opResetEnable, txnCmd s.cfg.opResetMemory, txnRdsr s.cfg]
      ∧ sameSurroundings s t ∧ lastConfigured s t ∧ tookSteps 16 s t

/-- READ (rules R141, R60): one quad-read frame, and byte `i` popped is stored at offset `i`; every other byte of the
buffer is as before. -/
def Obligations.ReadCompletes : Prop :=
  ∀ (s : State) (addr len : Word), Answered (needsRead len.toNat ++ [.complete, .any]) s → s.seq.inited = true →
    len ≠ 0 → Mem.wf s.host.hbuf = true →
    ∃ t, exec (.read addr len) s = .next t
      ∧ t.seq = okSeq 0
          { s.seq with txn := txnQread s.cfg (addr.setWidth 24) len, tmoBus := s.cfg.busWaitTicks, idx := len }
      ∧ newFrames s t = [txnQread s.cfg (addr.setWidth 24) len]
      ∧ (∀ k, memRead t.host.hbuf k = if k < len.toNat then inputByte s (2 * k + 4) else memRead s.host.hbuf k)
      ∧ t.cfg = s.cfg ∧ t.dev = s.dev ∧ t.host = { s.host with hbuf := t.host.hbuf }
      ∧ lastConfigured s t ∧ tookSteps (2 * len.toNat + 5) s t

/-- READ (rule R141 (c)) when the flags come for `k` bytes and then neither flag for a whole budget: code 2, the first `k`
bytes stored, the rest of the buffer untouched. -/
def Obligations.ReadDrainTimesOut : Prop :=
  ∀ (s : State) (addr len : Word) (k : Nat), Answered (needsRead k) s → s.seq.inited = true → k < len.toNat →
    Mem.wf s.host.hbuf = true →
    (∀ j, j < s.cfg.busWaitTicks.toNat → flagsMet maskFtTc true (drawAt s (2 * k + 3 + 2 * j)).flags = false) →
    ∃ t, exec (.read addr len) s = .next t
      ∧ t.seq = failSeq 2 .busTimeout
          { s.seq with txn := txnQread s.cfg (addr.setWidth 24) len, tmoBus := 0, idx := BitVec.ofNat 32 k }
      ∧ (∀ x, memRead t.host.hbuf x = if x < k then inputByte s (2 * x + 4) else memRead s.host.hbuf x)
      ∧ newFrames s t = [txnQread s.cfg (addr.setWidth 24) len] ∧ t.dev = s.dev
      ∧ tookSteps (2 * k + 3 + 2 * s.cfg.busWaitTicks.toNat + 1) s t

/-- READ and WRITE of length 0, and ABI_PROGRAM of size 0, succeed with no primitive (rules R141 (d), R151 (a), R180, R183).
That ABI_PROGRAM reports its success as the number 1 is general knowledge (R180; log entry 28). -/
def Obligations.ZeroLengthDoesNothing : Prop :=
  ∀ (s : State) (addr : Word), s.seq.inited = true →
    (∀ i, i = Instr.read addr 0 ∨ i = Instr.write addr 0 →
      ∃ t, exec i s = .next t ∧ t.seq = okSeq 0 s.seq ∧ t.env = s.env ∧ t.bri = s.bri ∧ sameSurroundings s t)
    ∧ ∃ t, exec (.abiProgram addr 0) s = .next t ∧ t.seq = okSeq 1 s.seq ∧ t.env = s.env ∧ t.bri = s.bri
      ∧ sameSurroundings s t

/-- WRITE (rules R151, R152) whose waits all end at once: the frames of `K` page-confined, ascending chunks that cover the
range, the bytes of the buffer in order, and the registers of the loop at its end. The latch is asked of the byte of the
latch poll only, and not busy of the byte of the device wait only. The premise is `address + length < 2^32`: at 2^32 the
32-bit `END_ADDR` wraps to 0 (log entry 32). -/
def Obligations.WriteCompletes : Prop :=
  ∀ (s : State) (addr len : Word), let n := len.toNat; let k := chunkCount s.cfg.pageSize addr.toNat n
    s.cfg.wf = true → s.seq.inited = true → len ≠ 0 → addr.toNat + n < 2 ^ 32 →
    s.cfg.welRetry ≠ 0 → s.cfg.programWaitTicks ≠ 0 → Answered (needsWrite s.cfg addr.toNat n) s →
    ∃ t, exec (.write addr len) s = .next t
      ∧ t.seq = okSeq 0
          { s.seq with curAddr := addr + len, curSize := 0, endAddr := addr + len, bufOff := len
                       idx := BitVec.ofNat 32 (chunkSize s.cfg.pageSize addr.toNat n (k - 1)), txn := txnRdsr s.cfg
                       tmoBus := s.cfg.busWaitTicks, tmoDev := s.cfg.programWaitTicks
                       srSnap := inputByte s (2 * n + 22 * k - 1) }
      ∧ newFrames s t = writeFrames s.cfg addr.toNat n
      ∧ bytesWritten (newCalls s t) = (List.range n).map (fun i => memRead s.host.hbuf i)
      ∧ sameSurroundings s t ∧ lastConfigured s t ∧ tookSteps (2 * n + 22 * k) s t

/-- The program frames of a WRITE that succeeds, in either environment (rule R152 (2) to (5)): there are `K`, the `j`-th for
chunk `j`; no chunk crosses a page boundary, all but the first start and all but the last end at one, and they tile the
range in order. -/
def Obligations.ChunksTileTheRange : Prop :=
  ∀ (s t : State) (addr len : Word), s.cfg.wf = true → s.host.resetAt = none → len ≠ 0 →
    addr.toNat + len.toNat < 2 ^ 32 → exec (.write addr len) s = .next t → t.seq.resCode = 0 →
    let p := s.cfg.pageSize; let a := addr.toNat; let n := len.toNat
    let k := (a + n - 1) / p - a / p + 1
    (newFrames s t).filter (fun x => x.opcode == s.cfg.opQuadProgram) = (List.range k).map (chunkTxn s.cfg a n)
    ∧ chunkStart p a 0 = a ∧ chunkEnd p a n (k - 1) = a + n
    ∧ (∀ j, j < k → chunkStart p a j < chunkEnd p a n j ∧ chunkSize p a n j ≤ p
        ∧ chunkStart p a j / p = (chunkEnd p a n j - 1) / p)
    ∧ ∀ j, j + 1 < k → chunkEnd p a n j = chunkStart p a (j + 1) ∧ chunkEnd p a n j % p = 0

/-- WRITE (rules R151, R152, R273, R232) that fails in any of its chunks, at each of its five stages: 1, the latch never
appears; 2, the bus is never idle before the program frame; 3, FIFO space never comes after `k` bytes of the chunk, the
wait the reference leaves unbounded; 4, transfer-complete never comes; 5, the device stays busy. The chunks before it are
sent whole, the next is never attempted, and CLEANUP ends it. -/
def Obligations.WriteStageFailures : Prop :=
  ∀ (s : State) (addr len : Word) (i : Nat), let p := s.cfg.pageSize; let b := s.cfg.busWaitTicks.toNat
    let o := 22 * i + 2 * (chunkStart p addr.toNat i - addr.toNat)
    let m := chunkSize p addr.toNat len.toNat i
    let before := needsChunks s.cfg addr.toNat len.toNat i
    let wren := txnCmd s.cfg.opWriteEnable; let rdsr := txnRdsr s.cfg
    let qpp := chunkTxn s.cfg addr.toNat len.toNat i
    s.cfg.wf = true → s.seq.inited = true → len ≠ 0 → addr.toNat + len.toNat < 2 ^ 32 →
    i < chunkCount p addr.toNat len.toNat → (0 < i → s.cfg.welRetry ≠ 0 ∧ s.cfg.programWaitTicks ≠ 0) →
    (let w := s.cfg.welRetry.toNat;
      Answered (before ++ needsSend ++ needsNoLatch w) s →
      ∃ t, exec (.write addr len) s = .next t ∧ tookSteps (o + 5 + 7 * w + 1) s t
        ∧ writeStopped addr len i 0 1 .writeEnableFailed (wren :: List.replicate w rdsr) s t)
    ∧ (s.cfg.welRetry ≠ 0 → Answered (before ++ needsEnable) s →
      (∀ j, j < b → (drawAt s (o + 11 + 2 * j)).flags.busy = true) →
      ∃ t, exec (.write addr len) s = .next t ∧ tookSteps (o + 11 + 2 * b + 1) s t
        ∧ writeStopped addr len i 0 2 .busTimeout [wren, rdsr] s t)
    ∧ (∀ k, k < m → s.cfg.welRetry ≠ 0 → Answered (before ++ needsFill k) s →
      (∀ j, j < b → (drawAt s (o + 14 + 2 * k + 2 * j)).flags.ft = false) →
      ∃ t, exec (.write addr len) s = .next t ∧ tookSteps (o + 14 + 2 * k + 2 * b + 1) s t
        ∧ writeStopped addr len i k 3 .busTimeout [wren, rdsr, qpp] s t ∧ t.seq.idx = BitVec.ofNat 32 k)
    ∧ (s.cfg.welRetry ≠ 0 → Answered (before ++ needsFill m) s →
      (∀ j, j < b → (drawAt s (o + 14 + 2 * m + 2 * j)).flags.tc = false) →
      ∃ t, exec (.write addr len) s = .next t ∧ tookSteps (o + 14 + 2 * m + 2 * b + 1) s t
        ∧ writeStopped addr len i m 4 .busTimeout [wren, rdsr, qpp] s t ∧ t.seq.idx = BitVec.ofNat 32 m)
    ∧ (let n := s.cfg.programWaitTicks.toNat;
      s.cfg.welRetry ≠ 0 → Answered (before ++ needsFill m ++ [.complete, .any] ++ needsBusy n) s →
      ∃ t, exec (.write addr len) s = .next t ∧ tookSteps (o + 16 + 2 * m + 7 * n + 1) s t
        ∧ writeStopped addr len i m 5 .deviceTimeout ([wren, rdsr, qpp] ++ List.replicate n rdsr) s t
        ∧ t.seq.idx = BitVec.ofNat 32 m)

/-- ERASE of a block (rules R160, R161): write enable, the variant's opcode at the address unrounded, the wait with the
variant's budget, the bus-idle wait and the clearing of all flags. -/
def Obligations.EraseCompletes : Prop :=
  ∀ (s : State) (addr : Word) (v : BlockSize), v ≠ .all → Answered needsErase s → s.cfg.welRetry ≠ 0 →
    variantTicks s.cfg v ≠ 0 → s.seq.inited = true →
    ∃ t, exec (.erase addr v) s = .next t
      ∧ t.seq = okSeq 0
          { s.seq with txn := txnRdsr s.cfg, tmoBus := s.cfg.busWaitTicks
                       tmoDev := BitVec.ofNat 32 (variantMs s.cfg v * s.cfg.ticksPerMs), srSnap := inputByte s 21 }
      ∧ newFrames s t = eraseFrames s.cfg (variantOp s.cfg v) (addr.setWidth 24)
      ∧ (newCalls s t).getLast? = some .clearAll
      ∧ sameSurroundings s t ∧ lastConfigured s t ∧ tookSteps 24 s t

/-- CHIP_ERASE, and ERASE with the whole-chip variant, whose address is ignored (rules R161 (a), R162, R103). -/
def Obligations.ChipEraseCompletes : Prop :=
  ∀ (s : State) (i : Instr), i = .chipErase ∨ (∃ addr, i = .erase addr .all) → Answered needsChip s →
    s.cfg.welRetry ≠ 0 → variantTicks s.cfg .all ≠ 0 → s.seq.inited = true →
    ∃ t, exec i s = .next t
      ∧ t.seq = okSeq 0
          { s.seq with txn := txnRdsr s.cfg, tmoBus := s.cfg.busWaitTicks
                       tmoDev := BitVec.ofNat 32 (s.cfg.maxWaitBulkMs * s.cfg.ticksPerMs), srSnap := inputByte s 21 }
      ∧ newFrames s t = [txnCmd s.cfg.opWriteEnable, txnRdsr s.cfg, txnCmd s.cfg.opBulkErase, txnRdsr s.cfg]
      ∧ sameSurroundings s t ∧ lastConfigured s t ∧ tookSteps 22 s t

/-- INIT_BUS (rule R171), with value 0, and ABI_INITIALIZE (rules R180, R182), with value 1: the seven fields, the enable,
the frames of RESET_MEMORY, and `INITED` set; accepted whatever `INITED` was (rule R26). -/
def Obligations.InitBusCompletes : Prop :=
  ∀ (s : State) (i : Instr) (v : DWord), i = .initBus ∧ v = 0 ∨ i = .abiInitialize ∧ v = 1 →
    Answered ([.any, .any] ++ needsReset) s → s.cfg.resetWaitTicks ≠ 0 →
    let fields : BusInit :=
      { fifoThreshold := s.cfg.fifoThreshold, prescaler := s.cfg.initPrescaler, sampleShift := s.cfg.initSampleShift
        addressingMode := s.cfg.initAddressingMode, flashSize := s.cfg.initFlashSize, csHold := s.cfg.initCsHold
        clockMode := s.cfg.initClockMode }
    ∃ t, exec i s = .next t
      ∧ t.seq = okSeq v
          { s.seq with txn := txnRdsr s.cfg, tmoBus := s.cfg.busWaitTicks, tmoDev := s.cfg.resetWaitTicks
                       srSnap := inputByte s 17, inited := true }
      ∧ (newCalls s t).take 2 = [.init fields, .enable]
      ∧ newFrames s t = [txnCmd s.cfg.opResetEnable, txnCmd s.cfg.opResetMemory, txnRdsr s.cfg]
      ∧ t.bri = { s.bri with en := true, init := fields, cfg := txnRdsr s.cfg }
      ∧ sameSurroundings s t ∧ tookSteps 18 s t

/-- DEINIT_BUS (rule R172) in both environments: one step, no frame, the controller disabled, `INITED` cleared, success;
accepted whatever `INITED` was. -/
def Obligations.DeinitBusCompletes : Prop :=
  ∀ s : State, s.host.resetAt ≠ some s.env.now →
    ∃ t, exec .deinitBus s = .next t ∧ t.seq = okSeq 0 { s.seq with inited := false } ∧ t.bri.en = false
      ∧ newCalls s t = [.disable] ∧ t.env.now = s.env.now + 1 ∧ t.cfg = s.cfg ∧ t.host = s.host
      ∧ (s.env.model = .any → t.dev = s.dev)

/-- ABI_PROGRAM (rules R180, R181, R183): the frames and bytes of WRITE at the masked address, with value 1 and code 0. -/
def Obligations.AbiProgramCompletes : Prop :=
  ∀ (s : State) (addr len : Word), let a := addr &&& s.cfg.abiAddrMask; let n := len.toNat
    let k := chunkCount s.cfg.pageSize a.toNat n
    s.cfg.wf = true → s.seq.inited = true → len ≠ 0 → a.toNat + n < 2 ^ 32 →
    s.cfg.welRetry ≠ 0 → s.cfg.programWaitTicks ≠ 0 → Answered (needsWrite s.cfg a.toNat n) s →
    ∃ t, exec (.abiProgram addr len) s = .next t
      ∧ t.seq.resCode = 0 ∧ t.seq.resCause = 0 ∧ t.seq.resValue = 1 ∧ t.seq.done = true ∧ t.seq.rdy = true
      ∧ t.seq.curAddr = a + len ∧ t.seq.endAddr = a + len ∧ t.seq.bufOff = len
      ∧ t.seq.erAddr = s.seq.erAddr ∧ t.seq.erEnd = s.seq.erEnd ∧ t.seq.inited = true
      ∧ newFrames s t = writeFrames s.cfg a.toNat n
      ∧ bytesWritten (newCalls s t) = (List.range n).map (fun i => memRead s.host.hbuf i)
      ∧ sameSurroundings s t ∧ lastConfigured s t ∧ tookSteps (2 * n + 22 * k) s t

/-- ABI_ERASE_RANGE (rules R180, R184): one 4 KiB erase per block, from the masked start less its remainder by the
subsector size to the block that holds the masked end; a range whose end is below that start erases nothing and
succeeds. -/
def Obligations.AbiEraseRangeCompletes : Prop :=
  ∀ (s : State) (first last : Word), let z := s.cfg.subsectorSize
    let lo := (first &&& s.cfg.abiAddrMask).toNat - (first &&& s.cfg.abiAddrMask).toNat % z
    let hi := (last &&& s.cfg.abiAddrMask).toNat
    let b := hi / z - lo / z + 1
    s.cfg.wf = true → s.seq.inited = true →
    (hi < lo → ∃ t, exec (.abiEraseRange first last) s = .next t
      ∧ t.seq = okSeq 1 { s.seq with erAddr := BitVec.ofNat 32 lo, erEnd := last &&& s.cfg.abiAddrMask }
      ∧ t.env = s.env ∧ t.bri = s.bri ∧ sameSurroundings s t)
    ∧ (lo ≤ hi → s.cfg.welRetry ≠ 0 → variantTicks s.cfg .b4K ≠ 0 → Answered (rounds b needsErase) s →
      ∃ t, exec (.abiEraseRange first last) s = .next t
      ∧ t.seq = okSeq 1
          { s.seq with erAddr := BitVec.ofNat 32 (lo + b * z), erEnd := last &&& s.cfg.abiAddrMask
                       txn := txnRdsr s.cfg, tmoBus := s.cfg.busWaitTicks
                       tmoDev := BitVec.ofNat 32 (s.cfg.maxWaitSubsectorMs * s.cfg.ticksPerMs)
                       srSnap := inputByte s (24 * b - 3) }
      ∧ newFrames s t = (List.range b).flatMap (fun j =>
          eraseFrames s.cfg s.cfg.opErase4K (BitVec.ofNat 24 (lo + j * z)))
      ∧ sameSurroundings s t ∧ lastConfigured s t ∧ tookSteps (24 * b) s t)

/-- ABI_VERIFY (rule R185): value 0, code 0, cause 0, no primitive, whatever `INITED` is and in every environment; every
operand field of its command is ignored. -/
def Obligations.AbiVerifyCompletes : Prop :=
  (∀ addr len arg : Word, decodeHost (hostWord 0x13 addr len arg) = .ok .abiVerify)
  ∧ ∀ s : State, ∃ t, exec .abiVerify s = .next t ∧ t.seq = okSeq 0 s.seq ∧ t.env = s.env ∧ t.bri = s.bri
      ∧ sameSurroundings s t

/-- Bus waits that never end (rules R218, R219, R232, R236, U13), each reported with cause BusTimeout after its whole budget
and one CLEANUP: the first bus-idle wait of an operation; the transfer-complete wait of READ_STATUS and SEND_COMMAND; the
completion wait of READ; both waits of the erase frame; and the closing bus-idle wait of ERASE. The waits of WRITE are in
WriteStageFailures, the byte-drain wait of READ in ReadDrainTimesOut. -/
def Obligations.StuckBusIsReported : Prop :=
  ∀ s : State, let b := s.cfg.busWaitTicks.toNat
    s.seq.inited = true →
    (∀ i : Instr, i = .readStatus ∨ (∃ op a, i = .sendCommand op a) ∨ (∃ a n, n ≠ 0 ∧ i = .read a n)
        ∨ i = .writeEnable ∨ i = .resetMemory ∨ (∃ a v, i = .erase a v) ∨ i = .chipErase → Undisturbed s →
      (∀ j, j < b → (drawAt s (2 * j)).flags.busy = true) →
      ∃ t, exec i s = .next t ∧ t.seq = failSeq 1 .busTimeout { s.seq with tmoBus := 0 } ∧ newFrames s t = []
        ∧ t.bri = s.bri ∧ sameSurroundings s t ∧ tookSteps (2 * b + 1) s t)
    ∧ (∀ (i : Instr) (x : Txn), i = .readStatus ∧ x = txnRdsr s.cfg ∨ (∃ op, i = .sendCommand op none ∧ x = txnCmd op)
        ∨ (∃ op a, i = .sendCommand op (some a) ∧ x = txnCmda op (a.setWidth 24)) → Answered needsIssue s →
      (∀ j, j < b → (drawAt s (3 + 2 * j)).flags.tc = false) →
      ∃ t, exec i s = .next t ∧ t.seq = failSeq 1 .busTimeout { s.seq with txn := x, tmoBus := 0 }
        ∧ newFrames s t = [x] ∧ sameSurroundings s t ∧ lastConfigured s t ∧ tookSteps (3 + 2 * b + 1) s t)
    ∧ (∀ addr len : Word, let n := len.toNat
      len ≠ 0 → Mem.wf s.host.hbuf = true → Answered (needsRead n) s →
      (∀ j, j < b → (drawAt s (3 + 2 * n + 2 * j)).flags.tc = false) →
      ∃ t, exec (.read addr len) s = .next t
        ∧ t.seq = failSeq 3 .busTimeout
            { s.seq with txn := txnQread s.cfg (addr.setWidth 24) len, tmoBus := 0, idx := len }
        ∧ (∀ k, memRead t.host.hbuf k = if k < n then inputByte s (2 * k + 4) else memRead s.host.hbuf k)
        ∧ newFrames s t = [txnQread s.cfg (addr.setWidth 24) len] ∧ t.dev = s.dev
        ∧ tookSteps (3 + 2 * n + 2 * b + 1) s t)
    ∧ (∀ (i : Instr) (addr : Word) (v : BlockSize), i = .erase addr v ∨ i = .chipErase ∧ v = .all →
      s.cfg.welRetry ≠ 0 →
      (Answered needsEnable s → (∀ j, j < b → (drawAt s (11 + 2 * j)).flags.busy = true) →
        ∃ t, exec i s = .next t ∧ t.seq.resCode = 2 ∧ t.seq.resCause = 1 ∧ t.seq.resValue = 0 ∧ t.seq.done = true
          ∧ newFrames s t = [txnCmd s.cfg.opWriteEnable, txnRdsr s.cfg] ∧ sameSurroundings s t
          ∧ tookSteps (11 + 2 * b + 1) s t)
      ∧ (Answered (needsEnable ++ needsIssue) s → (∀ j, j < b → (drawAt s (14 + 2 * j)).flags.tc = false) →
        ∃ t, exec i s = .next t ∧ t.seq.resCode = 2 ∧ t.seq.resCause = 1 ∧ t.seq.resValue = 0 ∧ t.seq.done = true
          ∧ newFrames s t = [txnCmd s.cfg.opWriteEnable, txnRdsr s.cfg, eraseTxn s.cfg v (addr.setWidth 24)]
          ∧ sameSurroundings s t ∧ tookSteps (14 + 2 * b + 1) s t))
    ∧ ∀ (addr : Word) (v : BlockSize), v ≠ .all → s.cfg.welRetry ≠ 0 → variantTicks s.cfg v ≠ 0 → Answered needsChip s →
      (∀ j, j < b → (drawAt s (22 + 2 * j)).flags.busy = true) →
      ∃ t, exec (.erase addr v) s = .next t
        ∧ t.seq = failSeq 4 .busTimeout
            { s.seq with txn := txnRdsr s.cfg, tmoBus := 0, tmoDev := variantTicks s.cfg v, srSnap := inputByte s 21 }
        ∧ newFrames s t = eraseFrames s.cfg (variantOp s.cfg v) (addr.setWidth 24)
        ∧ sameSurroundings s t ∧ lastConfigured s t ∧ tookSteps (22 + 2 * b + 1) s t

/-! ### What holds of every operation, in both environments -/

/-- Only READ writes the host's buffer, and only below its length (rule R79). -/
def Obligations.HostBufferFrame : Prop :=
  ∀ (i : Instr) (s t : State), exec i s = .next t →
    ((∀ a n, i ≠ .read a n) → t.host.hbuf = s.host.hbuf)
    ∧ ∀ a n, i = .read a n → Mem.wf s.host.hbuf = true →
        ∀ k, n.toNat ≤ k → memRead t.host.hbuf k = memRead s.host.hbuf k

/-- An operation configures frames of its own opcodes only (rules R94, R104): in particular the bulk-erase opcode comes
from CHIP_ERASE and the whole-chip variant alone (rule R161 (a)), SEND_COMMAND's own choice apart. -/
def Obligations.FramesAreTheOperationsOwn : Prop :=
  ∀ (i : Instr) (s t : State), exec i s = .next t → ∀ x ∈ newFrames s t, x.opcode ∈ frameOpcodes s.cfg i

/-- Every transaction SEQ configures is well formed (rule R92): "SEQ only ever builds the five well-formed shapes". -/
def Obligations.EveryFrameWellFormed : Prop :=
  ∀ (i : Instr) (s t : State), s.cfg.wf = true → exec i s = .next t → ∀ x ∈ newFrames s t, x.wf = true

/-- The latch is confirmed before every program and erase frame of an operation (rules R75, R276), in both environments:
the last byte read before it shows the latch set. SEND_COMMAND, which looks at no device state, is excepted. -/
def Obligations.LatchConfirmedBeforeUse : Prop :=
  ∀ (i : Instr) (s t : State), s.cfg.wf = true → (∀ op a, i ≠ .sendCommand op a) → exec i s = .next t →
    latchConfirmed s.cfg ((newEntries s t).map TraceEntry.call) = true

/-- SEQ never configures a busy controller and never writes to a full FIFO (rules R213, R217, R219). -/
def Obligations.NeverOverruns : Prop :=
  ∀ (i : Instr) (s : State), s.cfg.wf = true →
    exec i s ≠ .refused .controllerBusy ∧ exec i s ≠ .refused .fifoFull

/-- The working registers are unobservable (rule R261): from two states that differ only in them and in the command
registers, every instruction has the same outcome but for them. -/
def Obligations.WorkingRegistersUnobservable : Prop :=
  ∀ (i : Instr) (s s' : State), sameButWorking s s' →
    (∀ t, exec i s = .next t → ∃ t', exec i s' = .next t' ∧ sameButWorking t t')
    ∧ (∀ f, exec i s = .fault f → exec i s' = .fault f)
    ∧ (∀ r, exec i s = .refused r → exec i s' = .refused r)

/-- A reset of SEQ (rule R260) ends the operation it falls in at its step, without completing it, and leaves the
registers of rule R37; one that falls later leaves the operation alone; one that falls while SEQ waits changes neither
controller nor device and sends nothing. -/
def Obligations.HostResetEndsOperation : Prop :=
  (∀ (i : Instr) (s t : State) (k : Nat), isHostOp i = true → s.host.resetAt = some k → s.env.now ≤ k →
    exec i s = .next t →
    (t.host.resetAt = none → t.env.now = k ∧ t.seq.pc = [] ∧ t.seq.rdy = true ∧ t.seq.done = false
      ∧ t.seq.inited = false ∧ t.seq.resCode = 0 ∧ t.seq.resCause = 0 ∧ t.seq.resValue = 0)
    ∧ (t.host.resetAt ≠ none → t.host.resetAt = some k ∧ t.env.now ≤ k ∧ t.seq.done = true))
  ∧ ∀ s : State, s.seq.rdy = true → s.host.script = [] → s.host.resetAt = some s.env.now →
    ∃ t, step s = .next t ∧ t.seq = Seq.reset ∧ t.bri = s.bri ∧ t.dev = s.dev ∧ t.env = s.env ∧ t.cfg = s.cfg
      ∧ t.host = { s.host with resetAt := none }

/-! ### The flash commands -/

/-- RDSR (rules R30, R190, R191): always accepted, even while busy; the byte the device then sends is its status at that
moment, the busy bit and the latch bit at their positions and the other bits the device's own. -/
def Obligations.RdsrSendsTheStatus : Prop :=
  ∀ s : State, s.cfg.wf = true →
    ∃ t, exec .rdsr s = .next t ∧ onlyDevice s t ∧ t.dev = { s.dev with answer := .status, armed := false }
      ∧ ∀ d : Dev, d.answer = .status →
        ∃ b, (supplyMany 1 (t.withDev d)).1 = [b] ∧ (supplyMany 1 (t.withDev d)).2 = t.withDev d
          ∧ statusBusy s.cfg b = d.busy ∧ statusWel s.cfg b = d.wel
          ∧ ∀ k, k < 8 → k ≠ s.cfg.srBusyBit → k ≠ s.cfg.srWelBit → b.getLsbD k = d.other.getLsbD k

/-- WREN and WRDI (rules R192, R193): an idle device sets and clears the latch; a busy one ignores them. -/
def Obligations.LatchCommands : Prop :=
  ∀ s : State,
    (s.dev.busy = false →
      exec .wren s = .next (s.withDev { s.dev with wel := true, armed := false })
      ∧ exec .wrdi s = .next (s.withDev { s.dev with wel := false, armed := false }))
    ∧ (s.dev.busy = true →
      exec .wren s = .next (s.withDev { s.dev with armed := false })
      ∧ exec .wrdi s = .next (s.withDev { s.dev with armed := false }))

/-- RSTEN arms a reset, busy or not; RST acts only if armed: it abandons the operation in progress, whose bytes become
unspecified, clears the latch and starts the reset, and leaves every other byte (rules R194,
R195); outside the device only the count of free values changes. -/
def Obligations.ResetPair : Prop :=
  ∀ s : State,
    exec .rsten s = .next (s.withDev { s.dev with armed := true })
    ∧ (s.dev.armed = false → exec .rst s = .next s)
    ∧ (s.dev.armed = true → Mem.wf s.dev.mem = true →
      ∃ t, exec .rst s = .next t
        ∧ t.dev = { s.dev with mem := t.dev.mem, armed := false, wel := false, busy := true, op := .reset }
        ∧ (∀ a, a ∉ opTargets s.cfg s.dev.op → memRead t.dev.mem a = memRead s.dev.mem a)
        ∧ t.cfg = s.cfg ∧ t.seq = s.seq ∧ t.bri = s.bri ∧ t.host = s.host
        ∧ t.env = { s.env with frees := t.env.frees })

/-- While busy the device acts on RDSR, RSTEN and RST only (rule R204); without the latch it ignores a program and an
erase (rules R197, R202). -/
def Obligations.IgnoredFrames : Prop :=
  ∀ (s : State) (i : Instr),
    (∃ a d, d ≠ [] ∧ i = .qpp a d) ∨ (∃ a, i = .se4k a ∨ i = .be32k a ∨ i = .be64k a) ∨ i = .ce →
    s.dev.busy = true ∨ s.dev.wel = false →
    ∃ t, exec i s = .next t ∧ onlyDevice s t ∧ t.dev = { s.dev with armed := false }

/-- QREAD (rule R196): an idle device sends the array's bytes from the address on, in order, and keeps its array, BUSY and
latch; a busy one ignores the frame. Of a read that runs past the array nothing is said but that it runs and changes no
byte (U3). That the frame disarms a reset-enable is general knowledge (log entry 18), and that the device answers a
quad-line frame a premise of the device model (R206; log entry 26). -/
def Obligations.QreadSendsTheArray : Prop :=
  ∀ (s : State) (a : Addr24) (n : Word), n ≠ 0 →
    (s.dev.busy = false →
      ∃ t, exec (.qread a n) s = .next t ∧ onlyDevice s t
        ∧ t.dev = { s.dev with answer := t.dev.answer, armed := false }
        ∧ (supplyMany n.toNat t).2.dev.mem = s.dev.mem
        ∧ (a.toNat + n.toNat ≤ s.cfg.capacity →
          t.dev.answer = .array a.toNat
          ∧ (supplyMany n.toNat t).1 = (List.range n.toNat).map (fun i => memRead s.dev.mem (a.toNat + i))))
    ∧ (s.dev.busy = true →
      ∃ t, exec (.qread a n) s = .next t ∧ onlyDevice s t
        ∧ t.dev = { s.dev with answer := .ignored, armed := false })

/-- QPP (rules R197, R203) of at most a page: with the latch, an idle device starts the program; its end writes the data to
the erased bytes it names, leaves every byte it does not name, clears the latch and the busy bit. Of a byte it names that
was not 0xFF nothing is said (U7; log entry 7). A program that stays in
its page names the bytes from the address on; that one which runs past the page's end wraps to its start, that the
conditions are those and that the frame disarms a reset-enable is general knowledge (log entry 18). Premises of the
device model: quad-line frames are accepted, no block is protected (R71, R190, R206; log entry 26). -/
def Obligations.QppPrograms : Prop :=
  ∀ (s : State) (a : Addr24) (d : List Byte), let p := s.cfg.pageSize
    let target := fun i => a.toNat - a.toNat % p + (a.toNat % p + i) % p
    s.cfg.wf = true → Mem.wf s.dev.mem = true → d ≠ [] → d.length ≤ p → s.dev.busy = false → s.dev.wel = true →
    (∀ i, i < d.length → target i < s.cfg.capacity) →
    ∃ t, exec (.qpp a d) s = .next t ∧ onlyDevice s t
      ∧ t.dev = { s.dev with busy := true, op := .program a.toNat d, armed := false }
      ∧ (deviceEnd t).dev = { t.dev with mem := (deviceEnd t).dev.mem, busy := false, wel := false, op := .none }
      ∧ (∀ (i : Nat) (h : i < d.length), memRead s.dev.mem (target i) = 0xFF →
          memRead (deviceEnd t).dev.mem (target i) = d[i])
      ∧ (∀ x, (∀ i, i < d.length → x ≠ target i) → memRead (deviceEnd t).dev.mem x = memRead s.dev.mem x)
      ∧ (a.toNat % p + d.length ≤ p → ∀ i, i < d.length → target i = a.toNat + i)

/-- SE4K, BE32K, BE64K and CE (rules R198 to R203): with the latch, an idle device starts the erase of the aligned block
that contains the address, or of the array; its end makes every byte of it 0xFF, leaves every other byte, clears the
latch and the busy bit. The aligned block, the conditions and the disarming are general knowledge (log entry 18). Premise
of the device model: no block is protected (R71, R190; log entry 26). -/
def Obligations.ErasesFillTheirBlock : Prop :=
  ∀ (s : State) (a : Addr24) (i : Instr) (v : BlockSize),
    i = .se4k a ∧ v = .b4K ∨ i = .be32k a ∧ v = .b32K ∨ i = .be64k a ∧ v = .b64K ∨ i = .ce ∧ v = .all →
    let lo := if v = .all then 0 else a.toNat - a.toNat % variantSize s.cfg v
    let hi := lo + variantSize s.cfg v
    Mem.wf s.dev.mem = true → s.dev.busy = false → s.dev.wel = true → hi ≤ s.cfg.capacity →
    ∃ t, exec i s = .next t ∧ onlyDevice s t
      ∧ t.dev = { s.dev with busy := true, op := .erase lo hi, armed := false }
      ∧ (deviceEnd t).dev = { t.dev with mem := (deviceEnd t).dev.mem, busy := false, wel := false, op := .none }
      ∧ ∀ x, memRead (deviceEnd t).dev.mem x = if lo ≤ x ∧ x < hi then 0xFF else memRead s.dev.mem x

/-- Where the model stops (U3, U4, U5, U14, rule R207; log entries 14, 15, 16): a port that is not ready; a frame of no
bytes; an opcode that is none of the eleven; an accepted program or erase outside the array; under ENV-REF a primitive on
a disabled controller. Which programs and erases are accepted, and the aligned block, are general knowledge (log entry 18).
-/
def Obligations.WhereTheModelStops : Prop :=
  (∀ s : State, s.seq.rdy = false → step s = .refused .notReady)
  ∧ (∀ (s : State) (a : Addr24),
    exec (.qread a 0) s = .refused .wrongFrameShape ∧ exec (.qpp a []) s = .refused .wrongFrameShape)
  ∧ (∀ (f : Frame) (s : State), f.opcode ∉ s.cfg.opcodes → deliver f s = .refused .unknownFlashOpcode)
  ∧ (∀ (s : State) (a : Addr24) (d : List Byte), s.dev.busy = false → s.dev.wel = true → s.cfg.capacity ≤ a.toNat →
    (0 < s.cfg.subsectorSize → exec (.se4k a) s = .fault .noFlashByte)
    ∧ (0 < s.cfg.block32Size → exec (.be32k a) s = .fault .noFlashByte)
    ∧ (0 < s.cfg.sectorSize → exec (.be64k a) s = .fault .noFlashByte)
    ∧ (d ≠ [] → exec (.qpp a d) s = .fault .noFlashByte))
  ∧ (∀ s : State, s.env.model = .ref → s.bri.en = false → s.host.resetAt = none → s.seq.inited = true →
    s.cfg.busWaitTicks ≠ 0 → exec .readStatus s = .refused .controllerDisabled)

/-! ### Data claims, under ENV-REF: what success means -/

/-- INIT_BUS that succeeds leaves the reference environment ready, from any state of it (rules R133, R171, R220): the
controller enabled and settled, the device idle, `INITED` set. What a reset does in the device is general knowledge (log
entry 18). -/
def Obligations.RefInitBusReadies : Prop :=
  ∀ s t : State, s.env.model = .ref → s.host.resetAt = none → s.cfg.wf = true → s.cfg.capacity ≤ 2 ^ 24 →
    exec .initBus s = .next t → t.seq.resCode = 0 → RefReady t

/-- A READ that succeeds in a ready reference environment stores the array's bytes, changes no byte of the array, and
leaves the environment ready (rules R60, R141, R196). Premise of the device model: quad-line frames are accepted (R190,
R206; log entry 26). -/
def Obligations.RefReadReturnsTheArray : Prop :=
  ∀ (s t : State) (addr len : Word), RefReady s → Mem.wf s.host.hbuf = true → addr.toNat + len.toNat ≤ s.cfg.capacity →
    exec (.read addr len) s = .next t → t.seq.resCode = 0 →
    (∀ i, i < len.toNat → memRead t.host.hbuf i = memRead s.dev.mem (addr.toNat + i))
    ∧ t.dev.mem = s.dev.mem ∧ RefReady t

/-- A WRITE that succeeds in a ready reference environment, to an erased range of the device, has programmed the buffer's
bytes and no others, and leaves the environment ready (rules R73, R151, R197). Premises of the device model: quad-line
frames are accepted, no block is protected (log entry 26). -/
def Obligations.RefWritePrograms : Prop :=
  ∀ (s t : State) (addr len : Word), RefReady s → Mem.wf s.dev.mem = true → addr.toNat + len.toNat ≤ s.cfg.capacity →
    (∀ i, i < len.toNat → memRead s.dev.mem (addr.toNat + i) = 0xFF) →
    exec (.write addr len) s = .next t → t.seq.resCode = 0 →
    (∀ i, i < len.toNat → memRead t.dev.mem (addr.toNat + i) = memRead s.host.hbuf i)
    ∧ (∀ x, x < addr.toNat ∨ addr.toNat + len.toNat ≤ x → memRead t.dev.mem x = memRead s.dev.mem x)
    ∧ Mem.wf t.dev.mem = true ∧ t.host = s.host ∧ RefReady t

/-- `write(a, n, data)` followed by `read(a, n)` returns exactly `data`, if the region was erased first and both succeed
(rule R73). Premises of the device model: quad-line frames are accepted, no block is protected (log entry 26). -/
def Obligations.RefRoundTrip : Prop :=
  ∀ (s t u : State) (addr len : Word), RefReady s → Mem.wf s.dev.mem = true → Mem.wf s.host.hbuf = true →
    addr.toNat + len.toNat ≤ s.cfg.capacity → (∀ i, i < len.toNat → memRead s.dev.mem (addr.toNat + i) = 0xFF) →
    exec (.write addr len) s = .next t → t.seq.resCode = 0 → exec (.read addr len) t = .next u → u.seq.resCode = 0 →
    ∀ i, i < len.toNat → memRead u.host.hbuf i = memRead s.host.hbuf i

/-- An ERASE of any variant that succeeds in a ready reference environment has made every byte of the block (or of the
array) 0xFF and left every other byte, whatever was there (rules R73, R161, R162, R202); the environment is ready.
The aligned block is general knowledge (log entry 18); no block is protected (log entry 26). -/
def Obligations.RefEraseErases : Prop :=
  ∀ (s t : State) (addr : Word) (v : BlockSize), RefReady s → Mem.wf s.dev.mem = true → addr.toNat < s.cfg.capacity →
    let lo := if v = .all then 0 else addr.toNat - addr.toNat % variantSize s.cfg v
    exec (.erase addr v) s = .next t → t.seq.resCode = 0 →
    (∀ x, memRead t.dev.mem x = if lo ≤ x ∧ x < lo + variantSize s.cfg v then 0xFF else memRead s.dev.mem x)
    ∧ t.host = s.host ∧ RefReady t

/-- Under the schedule PROMPT-0 a ready reference environment lets ERASE complete with success in 24 steps, no tick among
them, and the block is erased (rules R161, R203, R221). That the device erases the aligned block is general knowledge (log
entry 18), that it sets the latch at once the model's choice (log entry 17), and that it protects no block a premise of
the device model (log entry 26). -/
def Obligations.RefPromptEraseCompletes : Prop :=
  ∀ (s : State) (addr : Word), RefReady s → s.bri.busy = false → Mem.wf s.dev.mem = true → s.cfg.busWaitTicks ≠ 0 →
    s.cfg.welRetry ≠ 0 → variantTicks s.cfg .b4K ≠ 0 → s.env.inputs = List.replicate 24 promptDraw →
    let lo := addr.toNat - addr.toNat % s.cfg.subsectorSize
    lo + s.cfg.subsectorSize ≤ s.cfg.capacity →
    ∃ t, exec (.erase addr .b4K) s = .next t ∧ t.seq.resCode = 0 ∧ t.seq.done = true
      ∧ t.env.now = s.env.now + 24 ∧ tickCount (newCalls s t) = 0
      ∧ newFrames s t = eraseFrames s.cfg s.cfg.opErase4K (addr.setWidth 24)
      ∧ (∀ x, memRead t.dev.mem x = if lo ≤ x ∧ x < lo + s.cfg.subsectorSize then 0xFF else memRead s.dev.mem x)
      ∧ RefReady t
end

