-- ==== Sys2Proof/Laws/State.lean ====
section
/-! SUPPORT. One lemma per part of the state per update, each true by `rfl`, so that no proof unfolds an update. -/

namespace Sys2Proof.Machine

@[simp] theorem withSeq_cfg (s : State) (q : Seq) : (s.withSeq q).cfg = s.cfg := rfl
@[simp] theorem withSeq_seq (s : State) (q : Seq) : (s.withSeq q).seq = q := rfl
@[simp] theorem withSeq_bri (s : State) (q : Seq) : (s.withSeq q).bri = s.bri := rfl
@[simp] theorem withSeq_dev (s : State) (q : Seq) : (s.withSeq q).dev = s.dev := rfl
@[simp] theorem withSeq_host (s : State) (q : Seq) : (s.withSeq q).host = s.host := rfl
@[simp] theorem withSeq_env (s : State) (q : Seq) : (s.withSeq q).env = s.env := rfl

@[simp] theorem withBri_cfg (s : State) (b : Bri) : (s.withBri b).cfg = s.cfg := rfl
@[simp] theorem withBri_seq (s : State) (b : Bri) : (s.withBri b).seq = s.seq := rfl
@[simp] theorem withBri_bri (s : State) (b : Bri) : (s.withBri b).bri = b := rfl
@[simp] theorem withBri_dev (s : State) (b : Bri) : (s.withBri b).dev = s.dev := rfl
@[simp] theorem withBri_host (s : State) (b : Bri) : (s.withBri b).host = s.host := rfl
@[simp] theorem withBri_env (s : State) (b : Bri) : (s.withBri b).env = s.env := rfl

@[simp] theorem withDev_cfg (s : State) (d : Dev) : (s.withDev d).cfg = s.cfg := rfl
@[simp] theorem withDev_seq (s : State) (d : Dev) : (s.withDev d).seq = s.seq := rfl
@[simp] theorem withDev_bri (s : State) (d : Dev) : (s.withDev d).bri = s.bri := rfl
@[simp] theorem withDev_dev (s : State) (d : Dev) : (s.withDev d).dev = d := rfl
@[simp] theorem withDev_host (s : State) (d : Dev) : (s.withDev d).host = s.host := rfl
@[simp] theorem withDev_env (s : State) (d : Dev) : (s.withDev d).env = s.env := rfl

@[simp] theorem withHost_cfg (s : State) (h : HostSide) : (s.withHost h).cfg = s.cfg := rfl
@[simp] theorem withHost_seq (s : State) (h : HostSide) : (s.withHost h).seq = s.seq := rfl
@[simp] theorem withHost_bri (s : State) (h : HostSide) : (s.withHost h).bri = s.bri := rfl
@[simp] theorem withHost_dev (s : State) (h : HostSide) : (s.withHost h).dev = s.dev := rfl
@[simp] theorem withHost_host (s : State) (h : HostSide) : (s.withHost h).host = h := rfl
@[simp] theorem withHost_env (s : State) (h : HostSide) : (s.withHost h).env = s.env := rfl

@[simp] theorem withEnv_cfg (s : State) (e : Env) : (s.withEnv e).cfg = s.cfg := rfl
@[simp] theorem withEnv_seq (s : State) (e : Env) : (s.withEnv e).seq = s.seq := rfl
@[simp] theorem withEnv_bri (s : State) (e : Env) : (s.withEnv e).bri = s.bri := rfl
@[simp] theorem withEnv_dev (s : State) (e : Env) : (s.withEnv e).dev = s.dev := rfl
@[simp] theorem withEnv_host (s : State) (e : Env) : (s.withEnv e).host = s.host := rfl
@[simp] theorem withEnv_env (s : State) (e : Env) : (s.withEnv e).env = e := rfl

@[simp] theorem setTmoBus_cfg (n : Word) (s : State) : (setTmoBus n s).cfg = s.cfg := rfl
@[simp] theorem setTmoBus_seq (n : Word) (s : State) : (setTmoBus n s).seq = { s.seq with tmoBus := n } := rfl
@[simp] theorem setTmoBus_bri (n : Word) (s : State) : (setTmoBus n s).bri = s.bri := rfl
@[simp] theorem setTmoBus_dev (n : Word) (s : State) : (setTmoBus n s).dev = s.dev := rfl
@[simp] theorem setTmoBus_host (n : Word) (s : State) : (setTmoBus n s).host = s.host := rfl
@[simp] theorem setTmoBus_env (n : Word) (s : State) : (setTmoBus n s).env = s.env := rfl

@[simp] theorem setTmoDev_cfg (n : Word) (s : State) : (setTmoDev n s).cfg = s.cfg := rfl
@[simp] theorem setTmoDev_seq (n : Word) (s : State) : (setTmoDev n s).seq = { s.seq with tmoDev := n } := rfl
@[simp] theorem setTmoDev_bri (n : Word) (s : State) : (setTmoDev n s).bri = s.bri := rfl
@[simp] theorem setTmoDev_dev (n : Word) (s : State) : (setTmoDev n s).dev = s.dev := rfl
@[simp] theorem setTmoDev_host (n : Word) (s : State) : (setTmoDev n s).host = s.host := rfl
@[simp] theorem setTmoDev_env (n : Word) (s : State) : (setTmoDev n s).env = s.env := rfl

@[simp] theorem setSrSnap_cfg (b : Byte) (s : State) : (setSrSnap b s).cfg = s.cfg := rfl
@[simp] theorem setSrSnap_seq (b : Byte) (s : State) : (setSrSnap b s).seq = { s.seq with srSnap := b } := rfl
@[simp] theorem setSrSnap_bri (b : Byte) (s : State) : (setSrSnap b s).bri = s.bri := rfl
@[simp] theorem setSrSnap_dev (b : Byte) (s : State) : (setSrSnap b s).dev = s.dev := rfl
@[simp] theorem setSrSnap_host (b : Byte) (s : State) : (setSrSnap b s).host = s.host := rfl
@[simp] theorem setSrSnap_env (b : Byte) (s : State) : (setSrSnap b s).env = s.env := rfl

@[simp] theorem setTxn_cfg (t : Txn) (s : State) : (setTxn t s).cfg = s.cfg := rfl
@[simp] theorem setTxn_seq (t : Txn) (s : State) : (setTxn t s).seq = { s.seq with txn := t } := rfl
@[simp] theorem setTxn_bri (t : Txn) (s : State) : (setTxn t s).bri = s.bri := rfl
@[simp] theorem setTxn_dev (t : Txn) (s : State) : (setTxn t s).dev = s.dev := rfl
@[simp] theorem setTxn_host (t : Txn) (s : State) : (setTxn t s).host = s.host := rfl
@[simp] theorem setTxn_env (t : Txn) (s : State) : (setTxn t s).env = s.env := rfl

@[simp] theorem setIdx_cfg (n : Word) (s : State) : (setIdx n s).cfg = s.cfg := rfl
@[simp] theorem setIdx_seq (n : Word) (s : State) : (setIdx n s).seq = { s.seq with idx := n } := rfl
@[simp] theorem setIdx_bri (n : Word) (s : State) : (setIdx n s).bri = s.bri := rfl
@[simp] theorem setIdx_dev (n : Word) (s : State) : (setIdx n s).dev = s.dev := rfl
@[simp] theorem setIdx_host (n : Word) (s : State) : (setIdx n s).host = s.host := rfl
@[simp] theorem setIdx_env (n : Word) (s : State) : (setIdx n s).env = s.env := rfl

@[simp] theorem setErAddr_cfg (n : Word) (s : State) : (setErAddr n s).cfg = s.cfg := rfl
@[simp] theorem setErAddr_seq (n : Word) (s : State) : (setErAddr n s).seq = { s.seq with erAddr := n } := rfl
@[simp] theorem setErAddr_bri (n : Word) (s : State) : (setErAddr n s).bri = s.bri := rfl
@[simp] theorem setErAddr_dev (n : Word) (s : State) : (setErAddr n s).dev = s.dev := rfl
@[simp] theorem setErAddr_host (n : Word) (s : State) : (setErAddr n s).host = s.host := rfl
@[simp] theorem setErAddr_env (n : Word) (s : State) : (setErAddr n s).env = s.env := rfl

@[simp] theorem setErEnd_cfg (n : Word) (s : State) : (setErEnd n s).cfg = s.cfg := rfl
@[simp] theorem setErEnd_seq (n : Word) (s : State) : (setErEnd n s).seq = { s.seq with erEnd := n } := rfl
@[simp] theorem setErEnd_bri (n : Word) (s : State) : (setErEnd n s).bri = s.bri := rfl
@[simp] theorem setErEnd_dev (n : Word) (s : State) : (setErEnd n s).dev = s.dev := rfl
@[simp] theorem setErEnd_host (n : Word) (s : State) : (setErEnd n s).host = s.host := rfl
@[simp] theorem setErEnd_env (n : Word) (s : State) : (setErEnd n s).env = s.env := rfl

@[simp] theorem setInited_cfg (b : Bool) (s : State) : (setInited b s).cfg = s.cfg := rfl
@[simp] theorem setInited_seq (b : Bool) (s : State) : (setInited b s).seq = { s.seq with inited := b } := rfl
@[simp] theorem setInited_bri (b : Bool) (s : State) : (setInited b s).bri = s.bri := rfl
@[simp] theorem setInited_dev (b : Bool) (s : State) : (setInited b s).dev = s.dev := rfl
@[simp] theorem setInited_host (b : Bool) (s : State) : (setInited b s).host = s.host := rfl
@[simp] theorem setInited_env (b : Bool) (s : State) : (setInited b s).env = s.env := rfl

@[simp] theorem countTmoBus_cfg (s : State) : (countTmoBus s).cfg = s.cfg := rfl
@[simp] theorem countTmoBus_seq (s : State) : (countTmoBus s).seq = { s.seq with tmoBus := s.seq.tmoBus - 1 } := rfl
@[simp] theorem countTmoBus_bri (s : State) : (countTmoBus s).bri = s.bri := rfl
@[simp] theorem countTmoBus_dev (s : State) : (countTmoBus s).dev = s.dev := rfl
@[simp] theorem countTmoBus_host (s : State) : (countTmoBus s).host = s.host := rfl
@[simp] theorem countTmoBus_env (s : State) : (countTmoBus s).env = s.env := rfl

@[simp] theorem countTmoDev_cfg (s : State) : (countTmoDev s).cfg = s.cfg := rfl
@[simp] theorem countTmoDev_seq (s : State) : (countTmoDev s).seq = { s.seq with tmoDev := s.seq.tmoDev - 1 } := rfl
@[simp] theorem countTmoDev_bri (s : State) : (countTmoDev s).bri = s.bri := rfl
@[simp] theorem countTmoDev_dev (s : State) : (countTmoDev s).dev = s.dev := rfl
@[simp] theorem countTmoDev_host (s : State) : (countTmoDev s).host = s.host := rfl
@[simp] theorem countTmoDev_env (s : State) : (countTmoDev s).env = s.env := rfl

@[simp] theorem setProgramLoop_cfg (cur size last off : Word) (s : State) : (setProgramLoop cur size last off s).cfg = s.cfg := rfl
@[simp] theorem setProgramLoop_seq (cur size last off : Word) (s : State) : (setProgramLoop cur size last off s).seq = { s.seq with curAddr := cur, curSize := size, endAddr := last, bufOff := off } := rfl
@[simp] theorem setProgramLoop_bri (cur size last off : Word) (s : State) : (setProgramLoop cur size last off s).bri = s.bri := rfl
@[simp] theorem setProgramLoop_dev (cur size last off : Word) (s : State) : (setProgramLoop cur size last off s).dev = s.dev := rfl
@[simp] theorem setProgramLoop_host (cur size last off : Word) (s : State) : (setProgramLoop cur size last off s).host = s.host := rfl
@[simp] theorem setProgramLoop_env (cur size last off : Word) (s : State) : (setProgramLoop cur size last off s).env = s.env := rfl

@[simp] theorem pushProc_cfg (p : Proc) (s : State) : (pushProc p s).cfg = s.cfg := rfl
@[simp] theorem pushProc_seq (p : Proc) (s : State) : (pushProc p s).seq = { s.seq with pc := { proc := p, phase := 0 } :: s.seq.pc } := rfl
@[simp] theorem pushProc_bri (p : Proc) (s : State) : (pushProc p s).bri = s.bri := rfl
@[simp] theorem pushProc_dev (p : Proc) (s : State) : (pushProc p s).dev = s.dev := rfl
@[simp] theorem pushProc_host (p : Proc) (s : State) : (pushProc p s).host = s.host := rfl
@[simp] theorem pushProc_env (p : Proc) (s : State) : (pushProc p s).env = s.env := rfl

@[simp] theorem popProc_cfg (s : State) : (popProc s).cfg = s.cfg := rfl
@[simp] theorem popProc_seq (s : State) : (popProc s).seq = { s.seq with pc := s.seq.pc.tail } := rfl
@[simp] theorem popProc_bri (s : State) : (popProc s).bri = s.bri := rfl
@[simp] theorem popProc_dev (s : State) : (popProc s).dev = s.dev := rfl
@[simp] theorem popProc_host (s : State) : (popProc s).host = s.host := rfl
@[simp] theorem popProc_env (s : State) : (popProc s).env = s.env := rfl

@[simp] theorem enterProc_cfg (p : Proc) (s : State) : (enterProc p s).cfg = s.cfg := rfl
@[simp] theorem enterProc_seq (p : Proc) (s : State) : (enterProc p s).seq = { s.seq with pc := [{ proc := p, phase := 0 }] } := rfl
@[simp] theorem enterProc_bri (p : Proc) (s : State) : (enterProc p s).bri = s.bri := rfl
@[simp] theorem enterProc_dev (p : Proc) (s : State) : (enterProc p s).dev = s.dev := rfl
@[simp] theorem enterProc_host (p : Proc) (s : State) : (enterProc p s).host = s.host := rfl
@[simp] theorem enterProc_env (p : Proc) (s : State) : (enterProc p s).env = s.env := rfl

@[simp] theorem setPhase_cfg (ph : Nat) (s : State) : (setPhase ph s).cfg = s.cfg := rfl
@[simp] theorem setPhase_bri (ph : Nat) (s : State) : (setPhase ph s).bri = s.bri := rfl
@[simp] theorem setPhase_dev (ph : Nat) (s : State) : (setPhase ph s).dev = s.dev := rfl
@[simp] theorem setPhase_host (ph : Nat) (s : State) : (setPhase ph s).host = s.host := rfl
@[simp] theorem setPhase_env (ph : Nat) (s : State) : (setPhase ph s).env = s.env := rfl

@[simp] theorem complete_cfg (code : Byte) (cause : Cause) (value : DWord) (s : State) : (complete code cause value s).cfg = s.cfg := rfl
@[simp] theorem complete_seq (code : Byte) (cause : Cause) (value : DWord) (s : State) : (complete code cause value s).seq = { s.seq with resCode := code, resCause := cause.code, resValue := value, done := true, rdy := true, pc := [] } := rfl
@[simp] theorem complete_bri (code : Byte) (cause : Cause) (value : DWord) (s : State) : (complete code cause value s).bri = s.bri := rfl
@[simp] theorem complete_dev (code : Byte) (cause : Cause) (value : DWord) (s : State) : (complete code cause value s).dev = s.dev := rfl
@[simp] theorem complete_host (code : Byte) (cause : Cause) (value : DWord) (s : State) : (complete code cause value s).host = s.host := rfl
@[simp] theorem complete_env (code : Byte) (cause : Cause) (value : DWord) (s : State) : (complete code cause value s).env = s.env := rfl

@[simp] theorem refuseCommand_cfg (code : Byte) (cause : Cause) (s : State) : (refuseCommand code cause s).cfg = s.cfg := rfl
@[simp] theorem refuseCommand_seq (code : Byte) (cause : Cause) (s : State) : (refuseCommand code cause s).seq = { s.seq with resCode := code, resCause := cause.code, resValue := 0, done := true, rdy := true, pc := [] } := rfl
@[simp] theorem refuseCommand_bri (code : Byte) (cause : Cause) (s : State) : (refuseCommand code cause s).bri = s.bri := rfl
@[simp] theorem refuseCommand_dev (code : Byte) (cause : Cause) (s : State) : (refuseCommand code cause s).dev = s.dev := rfl
@[simp] theorem refuseCommand_host (code : Byte) (cause : Cause) (s : State) : (refuseCommand code cause s).host = s.host := rfl
@[simp] theorem refuseCommand_env (code : Byte) (cause : Cause) (s : State) : (refuseCommand code cause s).env = s.env := rfl

@[simp] theorem acceptCommand_cfg (w : HostWord) (s : State) : (acceptCommand w s).cfg = s.cfg := rfl
@[simp] theorem acceptCommand_seq (w : HostWord) (s : State) : (acceptCommand w s).seq = { s.seq with cmdOp := hostOp w, cmdAddr := hostAddr w, cmdLen := hostLen w, cmdArg := hostArg w, rdy := false, done := false } := rfl
@[simp] theorem acceptCommand_bri (w : HostWord) (s : State) : (acceptCommand w s).bri = s.bri := rfl
@[simp] theorem acceptCommand_dev (w : HostWord) (s : State) : (acceptCommand w s).dev = s.dev := rfl
@[simp] theorem acceptCommand_host (w : HostWord) (s : State) : (acceptCommand w s).host = s.host := rfl
@[simp] theorem acceptCommand_env (w : HostWord) (s : State) : (acceptCommand w s).env = s.env := rfl

@[simp] theorem hbufWrite_cfg (off : Word) (b : Byte) (s : State) : (hbufWrite off b s).cfg = s.cfg := rfl
@[simp] theorem hbufWrite_seq (off : Word) (b : Byte) (s : State) : (hbufWrite off b s).seq = s.seq := rfl
@[simp] theorem hbufWrite_bri (off : Word) (b : Byte) (s : State) : (hbufWrite off b s).bri = s.bri := rfl
@[simp] theorem hbufWrite_dev (off : Word) (b : Byte) (s : State) : (hbufWrite off b s).dev = s.dev := rfl
@[simp] theorem hbufWrite_host (off : Word) (b : Byte) (s : State) : (hbufWrite off b s).host = { s.host with hbuf := memWrite s.host.hbuf off.toNat b } := rfl
@[simp] theorem hbufWrite_env (off : Word) (b : Byte) (s : State) : (hbufWrite off b s).env = s.env := rfl

@[simp] theorem takeAct_cfg (s : State) : (takeAct s).cfg = s.cfg := rfl
@[simp] theorem takeAct_seq (s : State) : (takeAct s).seq = s.seq := rfl
@[simp] theorem takeAct_bri (s : State) : (takeAct s).bri = s.bri := rfl
@[simp] theorem takeAct_dev (s : State) : (takeAct s).dev = s.dev := rfl
@[simp] theorem takeAct_host (s : State) : (takeAct s).host = { s.host with script := s.host.script.tail } := rfl
@[simp] theorem takeAct_env (s : State) : (takeAct s).env = s.env := rfl

@[simp] theorem advance_cfg (s : State) : (advance s).cfg = s.cfg := rfl
@[simp] theorem advance_seq (s : State) : (advance s).seq = s.seq := rfl
@[simp] theorem advance_bri (s : State) : (advance s).bri = s.bri := rfl
@[simp] theorem advance_dev (s : State) : (advance s).dev = s.dev := rfl
@[simp] theorem advance_host (s : State) : (advance s).host = s.host := rfl
@[simp] theorem advance_env (s : State) : (advance s).env = { s.env with inputs := s.env.inputs.tail, now := s.env.now + 1 } := rfl

@[simp] theorem record_cfg (c : BusCall) (s : State) : (record c s).cfg = s.cfg := rfl
@[simp] theorem record_seq (c : BusCall) (s : State) : (record c s).seq = s.seq := rfl
@[simp] theorem record_bri (c : BusCall) (s : State) : (record c s).bri = s.bri := rfl
@[simp] theorem record_dev (c : BusCall) (s : State) : (record c s).dev = s.dev := rfl
@[simp] theorem record_host (c : BusCall) (s : State) : (record c s).host = s.host := rfl
@[simp] theorem record_env (c : BusCall) (s : State) : (record c s).env = { s.env with trace := { pc := s.seq.pc, call := c } :: s.env.trace } := rfl

@[simp] theorem useFree_cfg (n : Nat) (s : State) : (useFree n s).cfg = s.cfg := rfl
@[simp] theorem useFree_seq (n : Nat) (s : State) : (useFree n s).seq = s.seq := rfl
@[simp] theorem useFree_bri (n : Nat) (s : State) : (useFree n s).bri = s.bri := rfl
@[simp] theorem useFree_dev (n : Nat) (s : State) : (useFree n s).dev = s.dev := rfl
@[simp] theorem useFree_host (n : Nat) (s : State) : (useFree n s).host = s.host := rfl
@[simp] theorem useFree_env (n : Nat) (s : State) : (useFree n s).env = { s.env with frees := s.env.frees + n } := rfl

@[simp] theorem disarm_cfg (s : State) : (disarm s).cfg = s.cfg := rfl
@[simp] theorem disarm_seq (s : State) : (disarm s).seq = s.seq := rfl
@[simp] theorem disarm_bri (s : State) : (disarm s).bri = s.bri := rfl
@[simp] theorem disarm_dev (s : State) : (disarm s).dev = { s.dev with armed := false } := rfl
@[simp] theorem disarm_host (s : State) : (disarm s).host = s.host := rfl
@[simp] theorem disarm_env (s : State) : (disarm s).env = s.env := rfl

@[simp] theorem startOp_cfg (op : DevOp) (s : State) : (startOp op s).cfg = s.cfg := rfl
@[simp] theorem startOp_seq (op : DevOp) (s : State) : (startOp op s).seq = s.seq := rfl
@[simp] theorem startOp_bri (op : DevOp) (s : State) : (startOp op s).bri = s.bri := rfl
@[simp] theorem startOp_dev (op : DevOp) (s : State) : (startOp op s).dev = { s.dev with busy := true, op := op, armed := false } := rfl
@[simp] theorem startOp_host (op : DevOp) (s : State) : (startOp op s).host = s.host := rfl
@[simp] theorem startOp_env (op : DevOp) (s : State) : (startOp op s).env = s.env := rfl

@[simp] theorem openAnswer_cfg (a : Answer) (s : State) : (openAnswer a s).cfg = s.cfg := rfl
@[simp] theorem openAnswer_seq (a : Answer) (s : State) : (openAnswer a s).seq = s.seq := rfl
@[simp] theorem openAnswer_bri (a : Answer) (s : State) : (openAnswer a s).bri = s.bri := rfl
@[simp] theorem openAnswer_dev (a : Answer) (s : State) : (openAnswer a s).dev = { s.dev with answer := a, armed := false } := rfl
@[simp] theorem openAnswer_host (a : Answer) (s : State) : (openAnswer a s).host = s.host := rfl
@[simp] theorem openAnswer_env (a : Answer) (s : State) : (openAnswer a s).env = s.env := rfl

@[simp] theorem resetSeq_cfg (s : State) : (resetSeq s).cfg = s.cfg := rfl
@[simp] theorem resetSeq_seq (s : State) : (resetSeq s).seq = Seq.reset := rfl
@[simp] theorem resetSeq_bri (s : State) : (resetSeq s).bri = s.bri := rfl
@[simp] theorem resetSeq_dev (s : State) : (resetSeq s).dev = s.dev := rfl
@[simp] theorem resetSeq_host (s : State) : (resetSeq s).host = { s.host with resetAt := none } := rfl
@[simp] theorem resetSeq_env (s : State) : (resetSeq s).env = s.env := rfl

@[simp] theorem setPhase_seq_nil (ph : Nat) (s : State) (h : s.seq.pc = []) : (setPhase ph s).seq = s.seq := by
  cases s with
  | mk c q b d ho e => cases q; cases h; rfl
theorem setPhase_seq_cons (ph : Nat) (s : State) (a : Activation) (rest : Pc) (h : s.seq.pc = a :: rest) :
    (setPhase ph s).seq = { s.seq with pc := { a with phase := ph } :: rest } := by
  simp [setPhase, h]

end Sys2Proof.Machine
end

