-- ==== Sys2Proof/Laws/Result.lean ====
section
/-! SUPPORT. What the combinators of procedure results do, and when a combined result is `Ok`. -/

namespace Sys2Proof.Machine

variable {α β : Type}

@[simp] theorem Res.bind_ok (a : α) (s : State) (k : α → State → Res β) : (Res.ok a s).bind k = k a s := rfl
@[simp] theorem Res.bind_fail (c : Byte) (e : Cause) (s : State) (k : α → State → Res β) :
    (Res.fail c e s).bind k = .fail c e s := rfl
@[simp] theorem Res.bind_reset (s : State) (k : α → State → Res β) : (Res.reset s).bind k = .reset s := rfl
@[simp] theorem Res.bind_fault (f : Fault) (k : α → State → Res β) : (Res.fault f).bind k = .fault f := rfl
@[simp] theorem Res.bind_refused (r : Refusal) (k : α → State → Res β) : (Res.refused r).bind k = .refused r := rfl

@[simp] theorem Res.recode_ok (c : Byte) (a : α) (s : State) : (Res.ok a s).recode c = .ok a s := rfl
@[simp] theorem Res.recode_fail (c d : Byte) (e : Cause) (s : State) :
    (Res.fail d e s : Res α).recode c = .fail c e s := rfl
@[simp] theorem Res.recode_reset (c : Byte) (s : State) : (Res.reset s : Res α).recode c = .reset s := rfl
@[simp] theorem Res.recode_fault (c : Byte) (f : Fault) : (Res.fault f : Res α).recode c = .fault f := rfl
@[simp] theorem Res.recode_refused (c : Byte) (r : Refusal) : (Res.refused r : Res α).recode c = .refused r := rfl

@[simp] theorem Res.popped_ok (a : α) (s : State) : (Res.ok a s).popped = .ok a (popProc s) := rfl
@[simp] theorem Res.popped_fail (c : Byte) (e : Cause) (s : State) :
    (Res.fail c e s : Res α).popped = .fail c e (popProc s) := rfl
@[simp] theorem Res.popped_reset (s : State) : (Res.reset s : Res α).popped = .reset s := rfl
@[simp] theorem Res.popped_fault (f : Fault) : (Res.fault f : Res α).popped = .fault f := rfl
@[simp] theorem Res.popped_refused (r : Refusal) : (Res.refused r : Res α).popped = .refused r := rfl

@[simp] theorem Res.orTimeout_met (c : Byte) (s : State) : (Res.ok Waited.met s).orTimeout c = .ok () s := rfl
@[simp] theorem Res.orTimeout_timeout (c : Byte) (s : State) :
    (Res.ok Waited.timeout s).orTimeout c = .fail c .busTimeout s := rfl
@[simp] theorem Res.orTimeout_fail (c d : Byte) (e : Cause) (s : State) :
    (Res.fail d e s : Res Waited).orTimeout c = .fail d e s := rfl
@[simp] theorem Res.orTimeout_reset (c : Byte) (s : State) : (Res.reset s : Res Waited).orTimeout c = .reset s := rfl

/-- A sequence is `Ok` exactly when both parts are. -/
theorem Res.bind_eq_ok {r : Res α} {k : α → State → Res β} {b : β} {t : State} :
    r.bind k = .ok b t ↔ ∃ a u, r = .ok a u ∧ k a u = .ok b t := by
  cases r <;> simp [Res.bind]

theorem Res.recode_eq_ok {r : Res α} {c : Byte} {a : α} {t : State} : r.recode c = .ok a t ↔ r = .ok a t := by
  cases r <;> simp [Res.recode]

theorem Res.popped_eq_ok {r : Res α} {a : α} {t : State} : r.popped = .ok a t ↔ ∃ u, r = .ok a u ∧ popProc u = t := by
  cases r <;> simp [Res.popped]

/-- A wait whose expiry is a failure is `Ok` exactly when its condition was met. -/
theorem Res.orTimeout_eq_ok {r : Res Waited} {c : Byte} {t : State} : r.orTimeout c = .ok () t ↔ r = .ok .met t := by
  unfold Res.orTimeout
  rw [Res.bind_eq_ok]
  constructor
  · rintro ⟨w, u, h, hk⟩
    cases w <;> simp_all
  · intro h
    exact ⟨.met, t, h, rfl⟩

/-- Every state a result ends in, if it ends in one, satisfies `P`. -/
def Res.Sat (P : State → Prop) (r : Res α) : Prop :=
  match r with
  | .ok _ t => P t
  | .fail _ _ t => P t
  | .reset t => P t
  | .fault _ => True
  | .refused _ => True

theorem Res.Sat.mono {P Q : State → Prop} {r : Res α} (h : r.Sat P) (hpq : ∀ t, P t → Q t) : r.Sat Q := by
  cases r <;> simp_all [Res.Sat]

theorem Res.Sat.bind {P : State → Prop} {r : Res α} {k : α → State → Res β} (h : r.Sat P)
    (hk : ∀ a t, P t → (k a t).Sat P) : (r.bind k).Sat P := by
  cases r with
  | ok a t => exact hk a t h
  | fail c e t => exact h
  | reset t => exact h
  | fault f => trivial
  | refused x => trivial

theorem Res.Sat.recode {P : State → Prop} {r : Res α} (c : Byte) (h : r.Sat P) : (r.recode c).Sat P := by
  cases r <;> exact h

theorem Res.Sat.popped {P : State → Prop} {r : Res α} (h : r.Sat P) (hp : ∀ t, P t → P (popProc t))
    : r.popped.Sat P := by
  cases r with
  | ok a t => exact hp t h
  | fail c e t => exact hp t h
  | reset t => exact h
  | fault f => trivial
  | refused x => trivial

theorem Res.Sat.orTimeout {P : State → Prop} {r : Res Waited} (c : Byte) (h : r.Sat P) : (r.orTimeout c).Sat P :=
  h.bind fun w _ ht => by cases w <;> exact ht

/-- The next state of an outcome, if it has one, satisfies `P`. -/
def Ends (P : State → Prop) (o : Host.Outcome State Fault Refusal) : Prop := ∀ t, o = .next t → P t

theorem Ends.next {P : State → Prop} {t : State} (h : P t) : Ends P (.next t) := by
  intro u e
  cases e
  exact h

end Sys2Proof.Machine
end

