-- ==== Sys2Proof/Laws/Bus.lean ====
section
/-! SUPPORT. What each SEQ step on the interface does: when it is `Ok` in any environment, and its exact result under
ENV-ANY (rule R211) with no reset of SEQ to come. -/

namespace Sys2Proof.Machine

/-- A SEQ step that ends `Ok` was not reset, its action was `Ok`, and so was the other agents' turn (rule R13). -/
theorem seqStep_eq_ok {α : Type} {ph : Nat} {s t : State} {act : Draw → State → Res α} {a : α} :
    seqStep ph s act = .ok a t ↔ s.host.resetAt ≠ some s.env.now
      ∧ ∃ u, act (nextDraw s) (advance (setPhase ph s)) = .ok a u ∧ otherAgents (nextDraw s) u = .ok () t := by
  unfold seqStep
  split
  · simp_all
  · simp only [Res.bind_eq_ok]
    constructor
    · rintro ⟨b, u, h1, _, v, h2, h3⟩
      cases h3
      exact ⟨‹_›, u, h1, h2⟩
    · rintro ⟨_, u, h1, h2⟩
      exact ⟨a, u, h1, (), t, h2, rfl⟩

/-- The state after a SEQ step at line `ph` that did `c`, under ENV-ANY, the controller apart. -/
def stepped (ph : Nat) (c : BusCall) (s : State) : State := record c (advance (setPhase ph s))

@[simp] theorem stepped_cfg (ph : Nat) (c : BusCall) (s : State) : (stepped ph c s).cfg = s.cfg := rfl
@[simp] theorem stepped_seq (ph : Nat) (c : BusCall) (s : State) : (stepped ph c s).seq = (setPhase ph s).seq := rfl
@[simp] theorem stepped_bri (ph : Nat) (c : BusCall) (s : State) : (stepped ph c s).bri = s.bri := rfl
@[simp] theorem stepped_dev (ph : Nat) (c : BusCall) (s : State) : (stepped ph c s).dev = s.dev := rfl
@[simp] theorem stepped_host (ph : Nat) (c : BusCall) (s : State) : (stepped ph c s).host = s.host := rfl
@[simp] theorem stepped_env (ph : Nat) (c : BusCall) (s : State) : (stepped ph c s).env =
    { s.env with inputs := s.env.inputs.tail, now := s.env.now + 1
                 trace := { pc := (setPhase ph s).seq.pc, call := c } :: s.env.trace } := rfl

variable {s : State} (ph : Nat)

theorem seqStep_any {α : Type} (h : Undisturbed s) (act : Draw → State → Res α) {a : α} {t : State}
    (hact : act (nextDraw s) (advance (setPhase ph s)) = .ok a t) (hm : t.env.model = .any) :
    seqStep ph s act = .ok a t :=
  seqStep_eq_ok.mpr ⟨by rw [h.2]; simp, t, hact, by unfold otherAgents; rw [hm]⟩

theorem onController_any {α : Type} {u : State} (h : u.env.model = .any) (x y : Res α) : onController u x y = x := by
  unfold onController
  rw [h]

theorem tick_any (h : Undisturbed s) : tick ph s = .ok () (stepped ph .tick s) := seqStep_any ph h _ rfl h.1

theorem briFlags_any (h : Undisturbed s) :
    briFlags ph s = .ok (nextDraw s).flags (stepped ph (.flags (nextDraw s).flags) s) :=
  seqStep_any ph h _ (onController_any h.1 _ _) h.1

theorem briConfigure_any (h : Undisturbed s) (t : Txn) :
    briConfigure ph t s = .ok () ((stepped ph (.configure t) s).withBri { s.bri with cfg := t }) :=
  seqStep_any ph h _ (onController_any h.1 _ _) h.1

theorem briTrigger_any (h : Undisturbed s) : briTrigger ph s = .ok () (stepped ph .trigger s) :=
  seqStep_any ph h _ (onController_any h.1 _ _) h.1

theorem briClearTc_any (h : Undisturbed s) : briClearTc ph s = .ok () (stepped ph .clearTc s) :=
  seqStep_any ph h _ (onController_any h.1 _ _) h.1

theorem briClearAll_any (h : Undisturbed s) : briClearAll ph s = .ok () (stepped ph .clearAll s) :=
  seqStep_any ph h _ (onController_any h.1 _ _) h.1

theorem briReadByte_any (h : Undisturbed s) :
    briReadByte ph s = .ok (nextDraw s).byte (stepped ph (.readByte (nextDraw s).byte) s) :=
  seqStep_any ph h _ (onController_any h.1 _ _) h.1

theorem briWriteByte_any (h : Undisturbed s) (v : Byte) :
    briWriteByte ph v s = .ok () (stepped ph (.writeByte v) s) :=
  seqStep_any ph h _ (onController_any h.1 _ _) h.1

theorem briInit_any (h : Undisturbed s) (f : BusInit) :
    briInit ph f s = .ok () ((stepped ph (.init f) s).withBri { s.bri with init := f }) := seqStep_any ph h _ rfl h.1

theorem briEnable_any (h : Undisturbed s) :
    briEnable ph s = .ok () ((stepped ph .enable s).withBri { s.bri with en := true }) := by
  refine seqStep_any (t := (stepped ph .enable s).withBri { s.bri with en := true }) ph h _ ?_ h.1
  simp only [advance_env, advance_bri, setPhase_bri, setPhase_env, h.1, enabledController]
  rfl

/-- A wait whose first sample meets the condition takes one step (rule R218). -/
theorem callWait_first (h : Undisturbed s) (mask : FlagSet) (e : Bool) (hb : s.cfg.busWaitTicks ≠ 0)
    (hf : flagsMet mask e (nextDraw s).flags = true) :
    callWait ph mask e s = .ok .met (popProc (stepped 1 (.flags (nextDraw s).flags)
      (setTmoBus s.cfg.busWaitTicks (pushProc .waitFlag (setPhase ph s))))) := by
  have hu : Undisturbed (setTmoBus s.cfg.busWaitTicks (pushProc .waitFlag (setPhase ph s))) := h
  have hd : nextDraw (setTmoBus s.cfg.busWaitTicks (pushProc .waitFlag (setPhase ph s))) = nextDraw s := rfl
  obtain ⟨n, hn⟩ := Nat.exists_eq_succ_of_ne_zero (fun z => hb (BitVec.eq_of_toNat_eq (by simpa using z)) :
    s.cfg.busWaitTicks.toNat ≠ 0)
  unfold callWait call waitFlag
  simp only [hn, waitFlagLoop]
  rw [briFlags_any 1 hu, hd, Res.bind_ok, if_pos hf, Res.popped_ok]

/-- CLEANUP is one step and cannot fail (rule R236). -/
theorem cleanup_any (h : Undisturbed s) :
    cleanup s = .ok () (popProc (stepped 1 .clearAll (pushProc .cleanup (setPhase 0 s)))) := by
  have hu : Undisturbed (pushProc .cleanup (setPhase 0 s)) := h
  unfold cleanup call
  rw [briClearAll_any 1 hu, Res.popped_ok]

end Sys2Proof.Machine
end

