-- ==== Sys2Proof/Laws/Frame.lean ====
section
/-! SUPPORT. A relation between states that holds of every register write and of every SEQ step on the interface holds
from the start of each procedure, and of each host operation, to its end. -/

namespace Sys2Proof.Machine

/-- A relation that nothing SEQ does breaks, the stores of READ in the host buffer apart. -/
structure Closed (R : State → State → Prop) : Prop where
  refl : ∀ s, R s s
  trans : ∀ s t u, R s t → R t u → R s u
  regs : ∀ s q, R s (s.withSeq q)
  tick : ∀ ph s, (tick ph s).Sat (R s)
  flags : ∀ ph s, (briFlags ph s).Sat (R s)
  configure : ∀ ph t s, (briConfigure ph t s).Sat (R s)
  trigger : ∀ ph s, (briTrigger ph s).Sat (R s)
  clearTc : ∀ ph s, (briClearTc ph s).Sat (R s)
  clearAll : ∀ ph s, (briClearAll ph s).Sat (R s)
  readByte : ∀ ph s, (briReadByte ph s).Sat (R s)
  writeByte : ∀ ph v s, (briWriteByte ph v s).Sat (R s)
  init : ∀ ph f s, (briInit ph f s).Sat (R s)
  enable : ∀ ph s, (briEnable ph s).Sat (R s)
  disable : ∀ ph s, (briDisable ph s).Sat (R s)

/-- The relation also holds of a store of READ. -/
def StoreClosed (R : State → State → Prop) : Prop := ∀ s off b, R s (hbufWrite off b s)

namespace Closed

variable {R : State → State → Prop} {α β : Type}

/-- One part after another. -/
theorem seq (h : Closed R) {s : State} {r : Res α} {k : α → State → Res β} (hr : r.Sat (R s))
    (hk : ∀ a t, (k a t).Sat (R t)) : (r.bind k).Sat (R s) :=
  hr.bind fun a t ht => (hk a t).mono fun u => h.trans s t u ht

/-- A register write before a part. -/
theorem after (h : Closed R) {s : State} (q : Seq) {r : Res α} (hr : r.Sat (R (s.withSeq q))) : r.Sat (R s) :=
  hr.mono fun u => h.trans s _ u (h.regs s q)

theorem pop (h : Closed R) {s : State} {r : Res α} (hr : r.Sat (R s)) : r.popped.Sat (R s) :=
  hr.popped fun t ht => h.trans s t _ ht (h.regs t _)

theorem call (h : Closed R) (ph : Nat) (p : Proc) (s : State) {body : State → Res α} (hb : ∀ s, (body s).Sat (R s)) :
    (Machine.call ph p s body).Sat (R s) :=
  h.pop (h.after _ (h.after _ (hb _)))

theorem waitFlagLoop (h : Closed R) (mask : FlagSet) (e : Bool) : ∀ (n : Nat) (s : State),
    (Machine.waitFlagLoop mask e n s).Sat (R s)
  | 0, s => h.refl s
  | n + 1, s => h.seq (h.flags 1 s) fun f t => by
      split
      · exact h.refl t
      · exact h.seq (h.tick 2 t) fun _ _ => h.after _ (h.waitFlagLoop mask e n _)

theorem callWait (h : Closed R) (ph : Nat) (mask : FlagSet) (e : Bool) (s : State) :
    (Machine.callWait ph mask e s).Sat (R s) :=
  h.call ph _ s fun _ => h.after _ (h.waitFlagLoop mask e _ _)

theorem startFrame (h : Closed R) (t : Txn) (s : State) : (Machine.startFrame t s).Sat (R s) :=
  h.after _ (h.seq (h.configure 2 t _) fun _ u => h.trigger 3 u)

theorem issue (h : Closed R) (t : Txn) (s : State) : (Machine.issue t s).Sat (R s) :=
  h.seq (h.callWait 1 _ _ s) fun w u => by
    cases w
    · exact h.seq (h.startFrame t u) fun _ v => h.refl v
    · exact h.refl u

theorem callIssue (h : Closed R) (ph : Nat) (c : Byte) (t : Txn) (s : State) :
    (Machine.callIssue ph c t s).Sat (R s) :=
  (h.call ph _ s (h.issue t)).orTimeout c

theorem cleanup (h : Closed R) (s : State) : (Machine.cleanup s).Sat (R s) := h.call 0 _ s (h.clearAll 1)

theorem readStatus (h : Closed R) (s : State) : (Machine.readStatus s).Sat (R s) :=
  h.seq (h.callIssue 1 1 _ s) fun _ t =>
  h.seq ((h.callWait 2 _ _ t).orTimeout 1) fun _ u =>
  h.seq (h.clearTc 3 u) fun _ v =>
  h.seq (h.readByte 4 v) fun _ w => h.regs w _

theorem callReadStatus (h : Closed R) (ph : Nat) (s : State) : (Machine.callReadStatus ph s).Sat (R s) :=
  h.call ph _ s h.readStatus

theorem waitNotBusyLoop (h : Closed R) : ∀ (n : Nat) (s : State), (Machine.waitNotBusyLoop n s).Sat (R s)
  | 0, s => h.refl s
  | n + 1, s => h.seq ((h.callReadStatus 1 s).recode 1) fun b t => by
      split
      · exact h.seq (h.tick 2 t) fun _ u => h.after _ (h.waitNotBusyLoop n _)
      · exact h.refl t

theorem waitNotBusy (h : Closed R) (n : Word) (s : State) : (Machine.waitNotBusy n s).Sat (R s) :=
  h.after _ (h.waitNotBusyLoop _ _)

theorem callWaitNotBusy (h : Closed R) (ph : Nat) (c : Byte) (n : Word) (s : State) :
    (Machine.callWaitNotBusy ph c n s).Sat (R s) :=
  h.seq ((h.call ph _ s (h.waitNotBusy n)).recode c) fun _ t => h.refl t

theorem sendCommand (h : Closed R) (op : Byte) (a : Option Addr24) (s : State) :
    (Machine.sendCommand op a s).Sat (R s) :=
  h.seq (h.callIssue 1 1 _ s) fun _ t => h.seq ((h.callWait 2 _ _ t).orTimeout 1) fun _ u => h.clearTc 3 u

theorem callSendCommand (h : Closed R) (ph : Nat) (c op : Byte) (a : Option Addr24) (s : State) :
    (Machine.callSendCommand ph c op a s).Sat (R s) :=
  (h.call ph _ s (h.sendCommand op a)).recode c

theorem latchPoll (h : Closed R) : ∀ (n : Nat) (s : State), (Machine.latchPoll n s).Sat (R s)
  | 0, s => h.refl s
  | n + 1, s => h.seq ((h.callReadStatus 2 s).recode 2) fun b t => by
      split
      · exact h.refl t
      · exact h.seq (h.tick 3 t) fun _ u => h.after _ (h.latchPoll n _)

theorem writeEnable (h : Closed R) (s : State) : (Machine.writeEnable s).Sat (R s) :=
  h.seq (h.callSendCommand 1 1 _ none s) fun _ _ => h.after _ (h.latchPoll _ _)

theorem callWriteEnable (h : Closed R) (s : State) : (Machine.callWriteEnable s).Sat (R s) :=
  (h.call 1 _ s h.writeEnable).recode 1

theorem resetMemory (h : Closed R) (s : State) : (Machine.resetMemory s).Sat (R s) :=
  h.seq (h.callSendCommand 1 1 _ none s) fun _ t =>
  h.seq (h.callSendCommand 2 2 _ none t) fun _ u => h.callWaitNotBusy 3 3 _ u

theorem readBytes (h : Closed R) (hb : StoreClosed R) : ∀ (n : Nat) (s : State), (Machine.readBytes n s).Sat (R s)
  | 0, s => h.refl s
  | n + 1, s =>
    h.seq ((h.callWait 4 _ _ s).orTimeout 2) fun _ t =>
    h.seq (h.seq (h.readByte 5 t) fun b u => h.trans u _ _ (hb u _ b) (h.regs _ _)) fun _ v =>
    h.readBytes hb n v

theorem read (h : Closed R) (hb : StoreClosed R) (a n : Word) (s : State) : (Machine.read a n s).Sat (R s) := by
  unfold Machine.read
  split
  · exact h.refl s
  · exact h.seq (h.callIssue 1 1 _ s) fun _ _ =>
      h.seq (h.after _ (h.readBytes hb _ _)) fun _ v =>
      h.seq ((h.callWait 6 _ _ v).orTimeout 3) fun _ w => h.clearTc 7 w

theorem writeBytes (h : Closed R) : ∀ (n : Nat) (s : State), (Machine.writeBytes n s).Sat (R s)
  | 0, s => h.refl s
  | n + 1, s =>
    h.seq ((h.callWait 3 _ _ s).orTimeout 3) fun _ t =>
    h.seq (h.seq (h.writeByte 4 _ t) fun _ _ => h.regs _ _) fun _ v => h.writeBytes n v

theorem writeChunk (h : Closed R) (s : State) : (Machine.writeChunk s).Sat (R s) :=
  h.seq (h.callWriteEnable s) fun _ t =>
  h.seq (h.callIssue 2 2 _ t) fun _ _ =>
  h.seq (h.after _ (h.writeBytes _ _)) fun _ v =>
  h.seq ((h.callWait 5 _ _ v).orTimeout 4) fun _ w =>
  h.seq (h.clearTc 6 w) fun _ x =>
  h.seq (h.callWaitNotBusy 7 5 _ x) fun _ y => h.regs y _

theorem writeChunks (h : Closed R) : ∀ (n : Nat) (s : State), (Machine.writeChunks n s).Sat (R s)
  | 0, _ => trivial
  | n + 1, s => h.seq (h.writeChunk s) fun _ t => by
      split
      · exact h.writeChunks n t
      · exact h.refl t

theorem write (h : Closed R) (a n : Word) (s : State) : (Machine.write a n s).Sat (R s) := by
  unfold Machine.write
  split
  · exact h.refl s
  · exact h.after _ (h.writeChunks _ _)

theorem chipErase (h : Closed R) (s : State) : (Machine.chipErase s).Sat (R s) :=
  h.seq (h.callWriteEnable s) fun _ t =>
  h.seq (h.callSendCommand 2 2 _ none t) fun _ u => h.callWaitNotBusy 3 3 _ u

theorem eraseBlock (h : Closed R) (a : Word) (op : Byte) (ms : Nat) (s : State) :
    (Machine.eraseBlock a op ms s).Sat (R s) :=
  h.seq (h.callWriteEnable s) fun _ t =>
  h.seq (h.callSendCommand 2 2 op _ t) fun _ u =>
  h.seq (h.callWaitNotBusy 3 3 _ u) fun _ v =>
  h.seq ((h.callWait 4 _ _ v).orTimeout 4) fun _ w => h.clearAll 5 w

theorem erase (h : Closed R) (a : Word) (v : BlockSize) (s : State) : (Machine.erase a v s).Sat (R s) := by
  cases v
  · exact h.eraseBlock a _ _ s
  · exact h.eraseBlock a _ _ s
  · exact h.eraseBlock a _ _ s
  · exact h.call 0 _ s h.chipErase

theorem initBus (h : Closed R) (s : State) : (Machine.initBus s).Sat (R s) :=
  h.after _ (h.seq (h.init 1 _ _) fun _ t =>
    h.seq (h.enable 2 t) fun _ u => h.seq (h.call 3 _ u h.resetMemory) fun _ v => h.regs v _)

theorem deinitBus (h : Closed R) (s : State) : (Machine.deinitBus s).Sat (R s) :=
  h.seq (h.disable 1 s) fun _ t => h.regs t _

theorem eraseBlocks (h : Closed R) : ∀ (n : Nat) (s : State), (Machine.eraseBlocks n s).Sat (R s)
  | 0, s => by
    unfold Machine.eraseBlocks
    split
    · exact h.refl s
    · trivial
  | n + 1, s => by
    unfold Machine.eraseBlocks
    split
    · exact h.refl s
    · exact h.seq (h.call 1 _ s (h.erase _ _)) fun _ t => h.after _ (h.eraseBlocks n _)

theorem abiEraseRange (h : Closed R) (x y : Word) (s : State) : (Machine.abiEraseRange x y s).Sat (R s) :=
  h.after _ (h.after _ (h.eraseBlocks _ _))

/-- From the end of the outermost procedure to the completed operation (rule R235). -/
theorem finish (h : Closed R) {s : State} {r : Res α} (value : α → DWord) (code : Byte → Byte) (hr : r.Sat (R s)) :
    Ends (R s) (Machine.finish value code r) := by
  cases r with
  | ok a t => exact Ends.next (h.trans s t _ hr (h.regs t _))
  | fail c e t =>
    have hc := h.cleanup t
    simp only [Machine.finish]
    cases hk : Machine.cleanup t with
    | ok a u => rw [hk] at hc; exact Ends.next (h.trans s t _ hr (h.trans t u _ hc (h.regs u _)))
    | fail d f u => rw [hk] at hc; exact Ends.next (h.trans s t _ hr (h.trans t u _ hc (h.regs u _)))
    | reset u => rw [hk] at hc; exact Ends.next (h.trans s t u hr hc)
    | fault f => intro u e; cases e
    | refused x => intro u e; cases e
  | reset t => exact Ends.next hr
  | fault f => intro u e; cases e
  | refused x => intro u e; cases e

theorem gated (h : Closed R) {s : State} {run : State → Host.Outcome State Fault Refusal} (hr : Ends (R s) (run s)) :
    Ends (R s) (Machine.gated s run) := by
  unfold Machine.gated
  split
  · exact hr
  · exact Ends.next (h.regs s _)

/-- Every host operation but READ keeps the relation from its start to its end. -/
theorem hostOp (h : Closed R) (i : Instr) (hi : isHostOp i = true) (hr : ∀ a n, i ≠ .read a n) (s : State) :
    Ends (R s) (exec i s) := by
  cases i with
  | readStatus => exact h.gated (run := fun _s => _) (h.finish _ _ (h.after _ (h.readStatus _)))
  | waitNotBusy n => exact h.gated (run := fun _s => _) (h.finish _ _ (h.after _ (h.waitNotBusy n _)))
  | sendCommand op a => exact h.gated (run := fun _s => _) (h.finish _ _ (h.after _ (h.sendCommand op _ _)))
  | writeEnable => exact h.gated (run := fun _s => _) (h.finish _ _ (h.after _ (h.writeEnable _)))
  | resetMemory => exact h.gated (run := fun _s => _) (h.finish _ _ (h.after _ (h.resetMemory _)))
  | read a n => exact absurd rfl (hr a n)
  | write a n => exact h.gated (run := fun _s => _) (h.finish _ _ (h.after _ (h.write a n _)))
  | erase a v => exact h.gated (run := fun _s => _) (h.finish _ _ (h.after _ (h.erase a v _)))
  | chipErase => exact h.gated (run := fun _s => _) (h.finish _ _ (h.after _ (h.chipErase _)))
  | initBus => exact h.finish _ _ (h.after _ (h.initBus _))
  | deinitBus => exact h.finish _ _ (h.after _ (h.deinitBus _))
  | abiInitialize => exact h.finish _ _ (h.after _ (h.call 1 _ _ h.initBus))
  | abiProgram a n => exact h.gated (run := fun _s => _) (h.finish _ _ (h.after _ (h.call 1 _ _ (h.write _ n))))
  | abiEraseRange x y => exact h.gated (run := fun _s => _) (h.finish _ _ (h.after _ (h.abiEraseRange x y _)))
  | abiVerify => exact Ends.next (h.trans s _ _ (h.regs s _) (h.regs _ _))
  | rdsr | wren | wrdi | rsten | rst | qread _ _ | qpp _ _ | se4k _ | be32k _ | be64k _ | ce => simp [isHostOp] at hi

/-- READ keeps the relation if its stores do. -/
theorem hostRead (h : Closed R) (hb : StoreClosed R) (a n : Word) (s : State) : Ends (R s) (exec (.read a n) s) :=
  h.gated (run := fun _s => _) (h.finish _ _ (h.after _ (h.read hb a n _)))

end Closed

end Sys2Proof.Machine
end

