-- ==== Sys2Proof/Laws/Agents.lean ====
section
/-! SUPPORT. What the other agents' turn can do, and a shorter way to show that a relation is closed under SEQ's steps. -/

namespace Sys2Proof.Machine

variable {R : State → State → Prop}

/-- A relation that every agent step keeps is kept by their turn (rule R13). -/
theorem agentSteps_sat (refl : ∀ s, R s s) (trans : ∀ s t u, R s t → R t u → R s u)
    (step : ∀ a s, (agentStep a s).Sat (R s)) : ∀ (l : List AgentStep) (s : State), (agentSteps l s).Sat (R s)
  | [], s => refl s
  | a :: l, s => (step a s).bind fun _ t ht =>
      (agentSteps_sat refl trans step l t).mono fun u => trans s t u ht

/-- Under ENV-ANY the other agents' turn changes nothing (rule R211). -/
theorem otherAgents_any {s : State} (d : Draw) (h : s.env.model = .any) : otherAgents d s = .ok () s := by
  unfold otherAgents
  rw [h]

/-- Under ENV-REF it is the agent steps of the draw. -/
theorem otherAgents_ref {s : State} (d : Draw) (h : s.env.model = .ref) : otherAgents d s = agentSteps d.moves s := by
  unfold otherAgents
  rw [h]

/-- The parts from which `Closed` follows, for a relation that does not look at the controller. -/
structure ClosedParts (R : State → State → Prop) : Prop where
  refl : ∀ s, R s s
  trans : ∀ s t u, R s t → R t u → R s u
  regs : ∀ s q, R s (s.withSeq q)
  bri : ∀ s b, R s (s.withBri b)
  advance : ∀ s, R s (advance s)
  record : ∀ c s, R s (record c s)
  useFree : ∀ n s, R s (useFree n s)
  reset : ∀ s, R s (resetSeq s)
  agents : ∀ a s, (agentStep a s).Sat (R s)

namespace ClosedParts

/-- A SEQ step keeps the relation if its action does. -/
theorem seqStep (h : ClosedParts R) {α : Type} (ph : Nat) (s : State) (act : Draw → State → Res α)
    (hact : ∀ d t, (act d t).Sat (R t)) : (Machine.seqStep ph s act).Sat (R s) := by
  unfold Machine.seqStep
  split
  · exact h.reset s
  · have hs : R s (Machine.advance (setPhase ph s)) := h.trans s _ _ (h.regs s _) (h.advance _)
    refine Res.Sat.bind ((hact _ _).mono fun u => h.trans s _ u hs) fun a t ht => Res.Sat.bind ?_ fun _ u hu => hu
    have ho : (otherAgents (nextDraw s) t).Sat (R t) := by
      unfold otherAgents
      split
      · exact h.refl t
      · exact agentSteps_sat h.refl h.trans h.agents _ t
    exact ho.mono fun u => h.trans s t u ht

theorem onController {α : Type} {s : State} {x y : Res α} (hx : x.Sat (R s)) (hy : y.Sat (R s)) :
    (Machine.onController s x y).Sat (R s) := by
  unfold Machine.onController
  split
  · exact hx
  · split
    · exact hy
    · exact trivial

theorem recordBri (h : ClosedParts R) (c : BusCall) (s : State) (b : Bri) : R s (Machine.record c (s.withBri b)) :=
  h.trans s _ _ (h.bri s b) (h.record c _)

theorem closed (h : ClosedParts R) : Closed R where
  refl := h.refl
  trans := h.trans
  regs := h.regs
  tick ph s := h.seqStep ph s _ fun _ t => h.record _ t
  flags ph s := h.seqStep ph s _ fun _ t => ClosedParts.onController (h.record _ t) (h.record _ t)
  configure ph x s := h.seqStep ph s _ fun _ t => ClosedParts.onController (h.recordBri _ t _) (by
    split
    · exact trivial
    · exact h.recordBri _ t _)
  trigger ph s := h.seqStep ph s _ fun _ t => ClosedParts.onController (h.record _ t) (h.recordBri _ t _)
  clearTc ph s := h.seqStep ph s _ fun _ t => ClosedParts.onController (h.record _ t) (h.recordBri _ t _)
  clearAll ph s := h.seqStep ph s _ fun _ t => ClosedParts.onController (h.record _ t) (h.recordBri _ t _)
  readByte ph s := h.seqStep ph s _ fun _ t => ClosedParts.onController (h.record _ t) (by
    split
    · exact trivial
    · exact h.recordBri _ t _)
  writeByte ph v s := h.seqStep ph s _ fun _ t => ClosedParts.onController (h.record _ t) (by
    split
    · exact h.recordBri _ t _
    · exact trivial)
  init ph f s := h.seqStep ph s _ fun _ t => h.recordBri _ t _
  enable ph s := h.seqStep ph s _ fun _ t => h.recordBri _ t _
  disable ph s := h.seqStep ph s _ fun _ t =>
    h.trans t _ _ (h.trans t _ _ (h.bri t _) (h.useFree 2 _)) (h.record _ _)

end ClosedParts

end Sys2Proof.Machine
end

