-- ==== Sys2Proof/Laws/Memory.lean ====
section
/-! SUPPORT. What the memory operations do: a read after a write, every other place left alone, the canonical form kept. -/

namespace Sys2Proof.Machine

theorem wfFrom_mono {lo lo' : Nat} (h : lo' ≤ lo) : ∀ {m : Mem}, Mem.wfFrom lo m = true → Mem.wfFrom lo' m = true
  | [], _ => rfl
  | (k, b) :: m, hm => by
    simp only [Mem.wfFrom, Bool.and_eq_true, decide_eq_true_eq] at hm ⊢
    exact ⟨⟨by omega, hm.1.2⟩, hm.2⟩

/-- Below its first possible address a memory in canonical form lists nothing. -/
theorem memRead_below {lo : Nat} : ∀ {m : Mem}, Mem.wfFrom lo m = true → ∀ a, a < lo → memRead m a = Mem.fill
  | [], _, _, _ => rfl
  | (k, b) :: m, hm, a, ha => by
    simp only [Mem.wfFrom, Bool.and_eq_true, decide_eq_true_eq] at hm
    rw [memRead, if_neg (by omega)]
    exact memRead_below hm.2 a (by omega)

theorem memWrite_wfFrom {lo : Nat} (a : Nat) (b : Byte) : ∀ {m : Mem}, lo ≤ a → Mem.wfFrom lo m = true →
    Mem.wfFrom lo (memWrite m a b) = true
  | [], ha, _ => by
    by_cases hb : b = Mem.fill <;> simp [memWrite, Mem.wfFrom, hb, ha]
  | (k, c) :: m, ha, hm => by
    have hm' := hm
    simp only [Mem.wfFrom, Bool.and_eq_true, decide_eq_true_eq, bne_iff_ne] at hm'
    obtain ⟨⟨hk, hc⟩, hrest⟩ := hm'
    by_cases h1 : a < k
    · by_cases hb : b = Mem.fill
      · simpa [memWrite, h1, hb] using hm
      · simp [memWrite, h1, hb, Mem.wfFrom, ha, hc, hrest]
    · by_cases h2 : a = k
      · subst h2
        by_cases hb : b = Mem.fill
        · simpa [memWrite, hb] using wfFrom_mono (by omega) hrest
        · simp [memWrite, hb, Mem.wfFrom, ha, hrest]
      · have := memWrite_wfFrom a b (m := m) (lo := k + 1) (by omega) hrest
        simp [memWrite, h1, h2, Mem.wfFrom, hk, hc, this]

/-- A store keeps the canonical form. -/
theorem memWrite_wf {m : Mem} (a : Nat) (b : Byte) (h : Mem.wf m = true) : Mem.wf (memWrite m a b) = true :=
  memWrite_wfFrom a b (Nat.zero_le _) h

theorem memRead_memWrite_from {lo : Nat} (a : Nat) (b : Byte) (x : Nat) : ∀ {m : Mem}, Mem.wfFrom lo m = true →
    memRead (memWrite m a b) x = if x = a then b else memRead m x
  | [], _ => by
    by_cases hb : b = Mem.fill
    · by_cases hx : x = a <;> simp [memWrite, memRead, hb, hx]
    · by_cases hx : x = a
      · subst hx; simp [memWrite, memRead, hb]
      · simp [memWrite, memRead, hb, hx, Ne.symm hx]
  | (k, c) :: m, hm => by
    simp only [Mem.wfFrom, Bool.and_eq_true, decide_eq_true_eq, bne_iff_ne] at hm
    obtain ⟨⟨_, _⟩, hrest⟩ := hm
    have ih := memRead_memWrite_from a b x (m := m) hrest
    by_cases h1 : a < k
    · by_cases hb : b = Mem.fill
      · simp only [memWrite, h1, hb, if_true]
        by_cases hx : x = a
        · subst hx
          rw [if_pos rfl, memRead, if_neg (by omega), memRead_below hrest x (by omega)]
        · rw [if_neg hx]
      · simp only [memWrite, h1, hb, if_true, if_false]
        by_cases hx : x = a
        · subst hx; simp [memRead]
        · simp [memRead, hx, Ne.symm hx]
    · by_cases h2 : a = k
      · subst h2
        by_cases hb : b = Mem.fill
        · simp only [memWrite, hb, if_true, Nat.lt_irrefl, if_false]
          by_cases hx : x = a
          · subst hx; rw [if_pos rfl]; exact memRead_below hrest x (by omega)
          · simp [memRead, hx, Ne.symm hx]
        · simp only [memWrite, hb, if_true, Nat.lt_irrefl, if_false]
          by_cases hx : x = a
          · subst hx; simp [memRead]
          · simp [memRead, hx, Ne.symm hx]
      · simp only [memWrite, h1, h2, if_false, memRead]
        by_cases hk : k = x
        · subst hk; simp [Ne.symm h2]
        · simp [hk, ih]

/-- A read after a store: the stored byte at its address, every other address as before. -/
theorem memRead_memWrite {m : Mem} (a : Nat) (b : Byte) (x : Nat) (h : Mem.wf m = true) :
    memRead (memWrite m a b) x = if x = a then b else memRead m x := memRead_memWrite_from a b x h

theorem memErase_wfFrom (lo hi : Nat) : ∀ {k : Nat} {m : Mem}, Mem.wfFrom k m = true →
    Mem.wfFrom k (memErase m lo hi) = true
  | _, [], _ => rfl
  | k, (a, b) :: m, h => by
    have h' := h
    simp only [Mem.wfFrom, Bool.and_eq_true, decide_eq_true_eq, bne_iff_ne] at h'
    obtain ⟨⟨hk, hb⟩, hrest⟩ := h'
    have ih := memErase_wfFrom lo hi (m := m) hrest
    unfold memErase at ih ⊢
    rw [List.filter_cons]
    split
    · simp [Mem.wfFrom, hk, hb, ih]
    · exact wfFrom_mono (by omega) ih

/-- An erase keeps the canonical form. -/
theorem memErase_wf {m : Mem} (lo hi : Nat) (h : Mem.wf m = true) : Mem.wf (memErase m lo hi) = true :=
  memErase_wfFrom lo hi h

/-- An erased range reads 0xFF, every other address as before. -/
theorem memRead_memErase (lo hi x : Nat) : ∀ (m : Mem),
    memRead (memErase m lo hi) x = if lo ≤ x ∧ x < hi then Mem.fill else memRead m x
  | [] => by simp [memErase, memRead]
  | (a, b) :: m => by
    have ih := memRead_memErase lo hi x m
    unfold memErase at ih ⊢
    rw [List.filter_cons]
    by_cases hin : a < lo ∨ hi ≤ a
    · rw [if_pos (by simpa using hin)]
      by_cases hx : a = x
      · subst hx; simp only [memRead, if_true]; rw [if_neg (by omega)]
      · simp only [memRead, hx, if_false, ih]
    · rw [if_neg (by simpa using hin), ih]
      by_cases hx : a = x
      · subst hx; rw [if_pos (by omega), if_pos (by omega)]
      · simp only [memRead, hx, if_false]

/-- A program keeps the canonical form. -/
theorem memProgram_wf : ∀ {m : Mem} (ws : List (Nat × Byte)) (k : Nat), Mem.wf m = true →
    Mem.wf (memProgram m ws k) = true
  | _, [], _, h => h
  | _, (_, _) :: ws, k, h => memProgram_wf ws (k + 1) (memWrite_wf _ _ h)

/-- A program leaves every address it does not name. -/
theorem memRead_memProgram_other {x : Nat} : ∀ {m : Mem} (ws : List (Nat × Byte)) (k : Nat), Mem.wf m = true →
    (∀ w ∈ ws, w.1 ≠ x) → memRead (memProgram m ws k) x = memRead m x
  | _, [], _, _, _ => rfl
  | m, (a, b) :: ws, k, h, hx => by
    rw [memProgram, memRead_memProgram_other ws (k + 1) (memWrite_wf _ _ h) (fun w hw => hx w (by simp [hw])),
      memRead_memWrite _ _ _ h, if_neg (fun e => hx (a, b) (by simp) e.symm)]

/-- Releasing bytes keeps the canonical form. -/
theorem memRelease_wf : ∀ {m : Mem} (as : List Nat) (k : Nat), Mem.wf m = true → Mem.wf (memRelease m as k) = true
  | _, [], _, h => h
  | _, _ :: as, k, h => memRelease_wf as (k + 1) (memWrite_wf _ _ h)

/-- Releasing bytes leaves every other address. -/
theorem memRead_memRelease_other {x : Nat} : ∀ {m : Mem} (as : List Nat) (k : Nat), Mem.wf m = true → x ∉ as →
    memRead (memRelease m as k) x = memRead m x
  | _, [], _, _, _ => rfl
  | m, a :: as, k, h, hx => by
    simp only [List.mem_cons, not_or] at hx
    rw [memRelease, memRead_memRelease_other as (k + 1) (memWrite_wf _ _ h) hx.2, memRead_memWrite _ _ _ h,
      if_neg hx.1]

theorem mem_memWrite {c : Host.Cell} (a : Nat) (b : Byte) : ∀ {m : Mem}, c ∈ memWrite m a b → c = (a, b) ∨ c ∈ m
  | [], h => by
    simp only [memWrite] at h
    split at h <;> simp_all
  | (k, d) :: m, h => by
    simp only [memWrite] at h
    split at h
    · split at h <;> simp_all
    · split at h
      · split at h
        · exact .inr (by simp [h])
        · rcases List.mem_cons.mp h with h | h
          · exact .inl h
          · exact .inr (by simp [h])
      · simp only [List.mem_cons] at h
        rcases h with h | h
        · simp [h]
        · rcases mem_memWrite a b h with h | h <;> simp [h]

/-- A program lists no address but those listed before and those it names. -/
theorem mem_memProgram {c : Host.Cell} : ∀ {m : Mem} (ws : List (Nat × Byte)) (k : Nat), c ∈ memProgram m ws k →
    c ∈ m ∨ ∃ w ∈ ws, c.1 = w.1
  | _, [], _, h => .inl h
  | _, (a, b) :: ws, k, h => by
    rcases mem_memProgram ws (k + 1) h with h | ⟨w, hw, e⟩
    · rcases mem_memWrite _ _ h with h | h
      · exact .inr ⟨(a, b), by simp, by rw [h]⟩
      · exact .inl h
    · exact .inr ⟨w, by simp [hw], e⟩

/-- Releasing bytes lists no address but those listed before and those it names. -/
theorem mem_memRelease {c : Host.Cell} : ∀ {m : Mem} (as : List Nat) (k : Nat), c ∈ memRelease m as k →
    c ∈ m ∨ c.1 ∈ as
  | _, [], _, h => .inl h
  | _, a :: as, k, h => by
    rcases mem_memRelease as (k + 1) h with h | h
    · rcases mem_memWrite _ _ h with h | h
      · exact .inr (by simp [h])
      · exact .inl h
    · exact .inr (by simp [h])

/-- An erase lists nothing new. -/
theorem mem_memErase {c : Host.Cell} {m : Mem} {lo hi : Nat} (h : c ∈ memErase m lo hi) : c ∈ m :=
  (List.mem_filter.mp h).1

theorem reset_memories_wf : Mem.wf State.reset.dev.mem = true ∧ Mem.wf State.reset.host.hbuf = true := ⟨rfl, rfl⟩

end Sys2Proof.Machine
end

