-- ==== Sys2Proof/Laws/Needs.lean ====
section
/-! SUPPORT. What an operation asks of the environment: the lengths of the lists of needs, and how answers split along
them. -/

namespace Sys2Proof.Machine

/-! ### The answers to come -/

theorem nextDraw_eq_drawAt (s : State) : nextDraw s = drawAt s 0 := rfl

/-- A SEQ step more: what was the next answer but one is the next. -/
@[simp] theorem drawAt_advance (s : State) (k : Nat) : drawAt (advance s) k = drawAt s (k + 1) := by
  simp [drawAt, advance, State.withEnv, Nat.add_comm, Nat.add_left_comm]

/-! ### Answers along a list of needs -/

@[simp] theorem answers_nil (s : State) (k : Nat) : answers s k [] = true := rfl

@[simp] theorem answers_cons (s : State) (k : Nat) (n : Need) (l : List Need) :
    answers s k (n :: l) = (n.met s.cfg (drawAt s k) && answers s (k + 1) l) := rfl

/-- Answers along two lists, one after the other. -/
theorem answers_append (s : State) (k : Nat) (l m : List Need) :
    answers s k (l ++ m) = (answers s k l && answers s (k + l.length) m) := by
  induction l generalizing k with
  | nil => simp
  | cons n l ih => simp [ih, Bool.and_assoc, Nat.add_comm 1, Nat.add_assoc]

/-- Answers after a SEQ step, for the parameters a step does not write. -/
theorem answers_advance (s : State) (k : Nat) (l : List Need) : answers (advance s) k l = answers s (k + 1) l := by
  induction l generalizing k with
  | nil => rfl
  | cons n l ih => rw [answers_cons, answers_cons, ih, drawAt_advance]; rfl

/-! ### Rounds -/

@[simp] theorem rounds_zero (l : List Need) : rounds 0 l = [] := rfl

@[simp] theorem rounds_succ (n : Nat) (l : List Need) : rounds (n + 1) l = l ++ rounds n l := by
  simp [rounds, List.replicate_succ]

@[simp] theorem rounds_length (n : Nat) (l : List Need) : (rounds n l).length = n * l.length := by
  induction n with
  | zero => simp
  | succ n ih => simp [ih, Nat.succ_mul, Nat.add_comm]

/-! ### Lengths: one need for each SEQ step -/

@[simp] theorem needsIssue_length : needsIssue.length = 3 := rfl
@[simp] theorem needsSend_length : needsSend.length = 5 := rfl
@[simp] theorem needsStatus_length (b : Need) : (needsStatus b).length = 6 := rfl
@[simp] theorem needsEnable_length : needsEnable.length = 11 := rfl
@[simp] theorem needsReset_length : needsReset.length = 16 := rfl
@[simp] theorem needsChip_length : needsChip.length = 22 := rfl
@[simp] theorem needsErase_length : needsErase.length = 24 := rfl

@[simp] theorem needsBusy_length (n : Nat) : (needsBusy n).length = n * 7 := by simp [needsBusy]

@[simp] theorem needsNoLatch_length (n : Nat) : (needsNoLatch n).length = n * 7 := by simp [needsNoLatch]

@[simp] theorem needsRead_length (n : Nat) : (needsRead n).length = 3 + n * 2 := by simp [needsRead]

@[simp] theorem needsFill_length (m : Nat) : (needsFill m).length = 14 + m * 2 := by simp [needsFill, Nat.add_comm]

@[simp] theorem needsChunk_length (m : Nat) : (needsChunk m).length = 22 + m * 2 := by
  simp [needsChunk]; omega

/-- The needs of one chunk more. -/
theorem needsChunks_succ (c : Cfg) (addr len k : Nat) :
    needsChunks c addr len (k + 1) = needsChunks c addr len k ++ needsChunk (chunkSize c.pageSize addr len k) := by
  simp [needsChunks, List.range_succ]

/-- The frames of one chunk more. -/
theorem chunkFrames_succ (c : Cfg) (addr len k : Nat) :
    chunkFrames c addr len (k + 1)
      = chunkFrames c addr len k ++ [txnCmd c.opWriteEnable, txnRdsr c, chunkTxn c addr len k, txnRdsr c] := by
  simp [chunkFrames, List.range_succ]

end Sys2Proof.Machine
end

