-- ==== Sys2Proof/Laws/PerInstr.lean ====
section
/-! SUPPORT. Statements about every instruction as syntax, one lemma per constructor. -/

namespace Sys2Proof.Laws

/-- Each instruction is encoded in exactly one of the two formats: a host operation as a host word, a flash command as a
frame, under all parameters (rule R90). -/
def Format.Statement (i : Instr) : Prop :=
  ∀ c : Cfg, (encodeHost i).isSome = Machine.isHostOp i ∧ (encodeFrame c i).isSome = !Machine.isHostOp i

theorem Format.readStatus : Format.Statement .readStatus := fun _ => ⟨rfl, rfl⟩
theorem Format.waitNotBusy (n : Word) : Format.Statement (.waitNotBusy n) := fun _ => ⟨rfl, rfl⟩
theorem Format.sendCommand (op : Byte) (a : Option Word) : Format.Statement (.sendCommand op a) := by
  cases a <;> exact fun _ => ⟨rfl, rfl⟩
theorem Format.writeEnable : Format.Statement .writeEnable := fun _ => ⟨rfl, rfl⟩
theorem Format.resetMemory : Format.Statement .resetMemory := fun _ => ⟨rfl, rfl⟩
theorem Format.read (a n : Word) : Format.Statement (.read a n) := fun _ => ⟨rfl, rfl⟩
theorem Format.write (a n : Word) : Format.Statement (.write a n) := fun _ => ⟨rfl, rfl⟩
theorem Format.erase (a : Word) (v : BlockSize) : Format.Statement (.erase a v) := fun _ => ⟨rfl, rfl⟩
theorem Format.chipErase : Format.Statement .chipErase := fun _ => ⟨rfl, rfl⟩
theorem Format.initBus : Format.Statement .initBus := fun _ => ⟨rfl, rfl⟩
theorem Format.deinitBus : Format.Statement .deinitBus := fun _ => ⟨rfl, rfl⟩
theorem Format.abiInitialize : Format.Statement .abiInitialize := fun _ => ⟨rfl, rfl⟩
theorem Format.abiProgram (a n : Word) : Format.Statement (.abiProgram a n) := fun _ => ⟨rfl, rfl⟩
theorem Format.abiEraseRange (x y : Word) : Format.Statement (.abiEraseRange x y) := fun _ => ⟨rfl, rfl⟩
theorem Format.abiVerify : Format.Statement .abiVerify := fun _ => ⟨rfl, rfl⟩
theorem Format.rdsr : Format.Statement .rdsr := fun _ => ⟨rfl, rfl⟩
theorem Format.wren : Format.Statement .wren := fun _ => ⟨rfl, rfl⟩
theorem Format.wrdi : Format.Statement .wrdi := fun _ => ⟨rfl, rfl⟩
theorem Format.rsten : Format.Statement .rsten := fun _ => ⟨rfl, rfl⟩
theorem Format.rst : Format.Statement .rst := fun _ => ⟨rfl, rfl⟩
theorem Format.qread (a : Addr24) (n : Word) : Format.Statement (.qread a n) := fun _ => ⟨rfl, rfl⟩
theorem Format.qpp (a : Addr24) (d : List Byte) : Format.Statement (.qpp a d) := fun _ => ⟨rfl, rfl⟩
theorem Format.se4k (a : Addr24) : Format.Statement (.se4k a) := fun _ => ⟨rfl, rfl⟩
theorem Format.be32k (a : Addr24) : Format.Statement (.be32k a) := fun _ => ⟨rfl, rfl⟩
theorem Format.be64k (a : Addr24) : Format.Statement (.be64k a) := fun _ => ⟨rfl, rfl⟩
theorem Format.ce : Format.Statement .ce := fun _ => ⟨rfl, rfl⟩

end Sys2Proof.Laws
end

