-- ==== Sys2Proof/Tests/Slice0.lean ====
section
/-! SUPPORT. Tests, each expected result from the spec (the vector of `95_test_vectors.md` named), and for every obligation
with hypotheses a state and operands that meet them. -/

namespace Sys2Proof.Tests

open Sys2Proof Sys2Proof.Machine

-- one theorem after another: a hundred kernel evaluations at once would each take a thread of its own
set_option Elab.async false

/-! ### Helpers -/

def reads (w : HostWord) (i : Instr) : Bool :=
  match decodeHost w with
  | .ok j => i == j
  | .error _ => false

def readsFrame (f : Frame) (i : Instr) : Bool :=
  match decodeFrame {} f with
  | .ok j => i == j
  | .error _ => false

/-- The outcome is a next state with the property. -/
def ends (o : Host.Outcome State Fault Refusal) (p : State → Bool) : Bool :=
  match o with
  | .next t => p t
  | _ => false

theorem ends_next {o : Host.Outcome State Fault Refusal} {p : State → Bool} (h : ends o p = true) :
    ∃ t, o = .next t ∧ p t = true := by
  cases o with
  | next t => exact ⟨t, rfl, h⟩
  | fault f => cases h
  | refused r => cases h

def draw (f : FlagSet) (b : Byte) : Draw := { moves := [], flags := f, byte := b }
def flagSet (busy tc ft : Bool) : FlagSet := { busy := busy, tc := tc, ft := ft }

/-- `n` answers on which every bus wait ends at once, with the byte `b`. -/
def healthy (n : Nat) (b : Byte) : List Draw := List.replicate n (draw (flagSet false true true) b)

/-- An answer that gives what is looked for and, under CFG-T, little else; where nothing is looked for, a busy bus. -/
def give : Need → Draw
  | .any => draw (flagSet true false false) 0x55
  | .busIdle => draw (flagSet false false false) 0
  | .complete => draw (flagSet true true false) 0
  | .room => draw (flagSet true false true) 0
  | .ready => draw (flagSet true false true) 0
  | .latched => draw (flagSet true false false) 0x03
  | .unlatched => draw (flagSet true false false) 0x01
  | .deviceBusy => draw (flagSet true false false) 0x01
  | .deviceIdle => draw (flagSet true false false) 0x00

def giving (l : List Need) : List Draw := l.map give

/-- `n` samples in which no flag but BUSY is set, each with the answer to its tick. -/
def stuck (n : Nat) : List Draw := List.replicate (2 * n) (draw (flagSet true false false) 0)

/-- ENV-ANY, initialised, with parameters CFG-T and the answers given. -/
def anyState (ins : List Draw) : State :=
  { State.reset with
    cfg := {}, seq := { Seq.reset with inited := true }
    env := { model := .any, inputs := ins, now := 0, frees := 0, trace := [] } }

/-- CFG-T with small budgets. -/
def smallCfg : Cfg :=
  { busWaitTicks := 2, welRetry := 1, resetWaitTicks := 1, programWaitTicks := 1, ticksPerMs := 1
    maxWaitSubsectorMs := 2, maxWaitSectorMs := 2, maxWaitBulkMs := 3 }

def smallState (ins : List Draw) : State := { anyState ins with cfg := smallCfg }

/-- ENV-REF on the schedule PROMPT-0, initialised and ready, with the array and the buffer given. -/
def refState (n : Nat) (flash hbuf : Mem) : State :=
  { anyState (List.replicate n promptDraw) with
    bri := { Bri.powerUp with en := true }
    dev := { Dev.powerUp with mem := flash }
    host := { hbuf := hbuf, script := [], resetAt := none }
    env := { model := .ref, inputs := List.replicate n promptDraw, now := 0, frees := 0, trace := [] } }

/-- Any state with the device given. -/
def devState (d : Dev) : State := { refState 0 [] [] with dev := d }

def busyDev : Dev := { Dev.powerUp with busy := true, wel := true, op := .erase 0x1000 0x2000 }
def latchedDev : Dev := { Dev.powerUp with wel := true, mem := [(0xC8, 0x12), (0x1005, 0x34), (0x8000, 0x56)] }

/-- Rule R186: the values the source settles. -/
theorem test_descriptor_export : (Cfg.descriptorExport {}).typeTag = .norFlash
    ∧ (Cfg.descriptorExport {}).totalSize = 8 * 1024 * 1024 ∧ (Cfg.descriptorExport {}).pageSize = 256
    ∧ (Cfg.descriptorExport {}).eraseFill = 0xFF := by decide

/-! ### WellFormed: each check refuses an ill-formed term -/

theorem test_wf_refuses_empty_read : Instr.wf {} (.qread 0 0) = false := by decide
theorem test_wf_refuses_empty_program : Instr.wf {} (.qpp 0 []) = false := by decide
theorem test_wf_refuses_program_over_a_page : Instr.wf {} (.qpp 0 (List.replicate 257 0)) = false := by decide +kernel
theorem test_wf_accepts_a_page : Instr.wf {} (.qpp 0 (List.replicate 256 0)) = true := by decide +kernel
theorem test_wf_refuses_lengthless_data : Txn.wf { txnRdsr {} with length := 0 } = false := by decide
theorem test_wf_refuses_lineless_data : Txn.wf { txnRdsr {} with dataLines := .absent } = false := by decide
theorem test_wf_refuses_widthless_address : Txn.wf { txnCmda 0x20 0 with addrWidthBits := 0 } = false := by decide
theorem test_wf_accepts_the_shapes : [txnRdsr {}, txnCmd 0x06, txnCmda 0x20 0x1000, txnQread {} 0 4, txnQpp {} 0 56].all
    Txn.wf = true := by decide +kernel
theorem test_cfg_wf : Cfg.wf {} = true ∧ Cfg.wf { opErase32K := 0xD8 } = false ∧ Cfg.wf { srBusyBit := 1 } = false
    ∧ Cfg.wf { fifoThreshold := 0 } = false ∧ Cfg.wf { pageSize := 255 } = false := by decide +kernel

/-! ### Decoding: the words H1 to H22 and the frames B1 to B12 -/

theorem test_decode_poller : reads 0x00000000000000000000000001 .readStatus = true
    ∧ reads 0x000003E8000000000000000002 (.waitNotBusy 1000) = true := by decide +kernel
theorem test_decode_protocol : reads 0x00000004000000000000000003 (.sendCommand 0x04 none) = true
    ∧ reads 0x00000120000000000000300003 (.sendCommand 0x20 (some 0x3000)) = true
    ∧ reads 0x00000000000000000000000004 .writeEnable = true
    ∧ reads 0x00000000000000000000000005 .resetMemory = true := by decide +kernel
theorem test_decode_data : reads 0x000000000000012C000010C806 (.read 0x10C8 300) = true
    ∧ reads 0x000000000000012C000010C807 (.write 0x10C8 300) = true := by decide +kernel
theorem test_decode_erase : reads 0x00000000000000000000100008 (.erase 0x1000 .b4K) = true
    ∧ reads 0x00000001000000000000800008 (.erase 0x8000 .b32K) = true
    ∧ reads 0x00000002000000000001000008 (.erase 0x10000 .b64K) = true
    ∧ reads 0x00000003000000000000000008 (.erase 0 .all) = true
    ∧ reads 0xFFFFFFFE000000000000123408 (.erase 0x1234 .b64K) = true
    ∧ reads 0x00000000000000000000000009 .chipErase = true := by decide +kernel
theorem test_decode_bus : reads 0x0000000000000000000000000A .initBus = true
    ∧ reads 0x0000000000000000000000000B .deinitBus = true := by decide +kernel
theorem test_decode_abi : reads 0x00000000000000000000000010 .abiInitialize = true
    ∧ reads 0x000000000000012C900000C811 (.abiProgram 0x900000C8 300) = true
    ∧ reads 0x90002FFF000000009000105012 (.abiEraseRange 0x90001050 0x90002FFF) = true
    ∧ reads 0x00000000000000000000000013 .abiVerify = true := by decide +kernel
theorem test_decode_illegal : decodeTableWord 8 0x00 = none ∧ decodeTableWord 104 0x0C = none
    ∧ decodeTableWord 8 0x13 = some .abiVerify := by decide +kernel

/-- The frames of single-line commands (B1 to B5, B12). -/
def cmdFrame (op : Byte) : Frame :=
  { opcode := op, addr := none, addrLines := .absent, dummyCycles := 0, dataLines := .absent, data := .none }

theorem test_decode_frames_cmd : readsFrame (cmdFrame 0x06) .wren = true ∧ readsFrame (cmdFrame 0x04) .wrdi = true
    ∧ readsFrame (cmdFrame 0x66) .rsten = true ∧ readsFrame (cmdFrame 0x99) .rst = true
    ∧ readsFrame (cmdFrame 0xC7) .ce = true ∧ readsFrame (cmdFrame 0x20) (.se4k 0) = false := by decide +kernel
theorem test_decode_frames_data :
    readsFrame { opcode := 0x05, addr := none, addrLines := .absent, dummyCycles := 0, dataLines := .one
                 data := .read 1 } .rdsr = true
    ∧ readsFrame { opcode := 0xEB, addr := some 0x0010C8, addrLines := .four, dummyCycles := 10, dataLines := .four
                   data := .read 300 } (.qread 0x0010C8 300) = true
    ∧ readsFrame { opcode := 0x32, addr := some 0x0010C8, addrLines := .one, dummyCycles := 0, dataLines := .four
                   data := .write [0x11, 0x22] } (.qpp 0x0010C8 [0x11, 0x22]) = true := by decide +kernel
theorem test_decode_frames_erase :
    readsFrame { cmdFrame 0x20 with addr := some 0x001000, addrLines := .one } (.se4k 0x001000) = true
    ∧ readsFrame { cmdFrame 0x52 with addr := some 0x008000, addrLines := .one } (.be32k 0x008000) = true
    ∧ readsFrame { cmdFrame 0xD8 with addr := some 0x010000, addrLines := .one } (.be64k 0x010000) = true := by
  decide +kernel

/-! ### Vectors, one or two for each operation -/

def idleFlags : FlagSet := flagSet false false false
def tcFlags : FlagSet := flagSet false true false
def ftFlags : FlagSet := flagSet false false true

/-- The answers to one status read of the byte `b`. -/
def statusRead (b : Byte) : List Draw :=
  [draw idleFlags 0, draw idleFlags 0, draw idleFlags 0, draw tcFlags 0, draw idleFlags 0, draw idleFlags b]

/-- The answer to a tick, and those to one command frame. -/
def oneTick : List Draw := [draw idleFlags 0]
def commandFrame : List Draw := [draw idleFlags 0, draw idleFlags 0, draw idleFlags 0, draw tcFlags 0, draw idleFlags 0]

/-- RS1. -/
theorem test_read_status : ends (exec .readStatus (anyState (statusRead 0xA3))) (fun t =>
    t.seq.resCode == 0 && t.seq.resValue == 0xA3 && t.seq.srSnap == 0xA3 && t.env.now == 6) = true := by decide +kernel

/-- S1. -/
theorem test_wait_not_busy : ends (exec (.waitNotBusy 3)
    (anyState (statusRead 1 ++ oneTick ++ statusRead 1 ++ oneTick ++ statusRead 0))) (fun t =>
    t.seq.resCode == 0 && t.seq.tmoDev == 1 && t.env.now == 20) = true := by decide +kernel

/-- S4. -/
theorem test_wait_not_busy_zero : ends (exec (.waitNotBusy 0) (anyState [])) (fun t =>
    t.seq.resCode == 2 && t.seq.resCause == 2 && t.env.now == 1) = true := by decide +kernel

/-- SC1. -/
theorem test_send_command : ends (exec (.sendCommand 0x04 none)
    { refState 5 [] [] with dev := latchedDev }) (fun t =>
    t.seq.resCode == 0 && !t.dev.wel && t.env.now == 5) = true := by decide +kernel

/-- SC2. -/
theorem test_send_command_without_latch : ends (exec (.sendCommand 0x20 (some 0x3000)) (refState 5 [(0x3000, 1)] []))
    (fun t => t.seq.resCode == 0 && memRead t.dev.mem 0x3000 == 1) = true := by decide +kernel

/-- WE2. -/
theorem test_write_enable : ends (exec .writeEnable
    (anyState (commandFrame ++ statusRead 0 ++ oneTick ++ statusRead 0 ++ oneTick ++ statusRead 2))) (fun t =>
    t.seq.resCode == 0 && t.seq.tmoDev == 99998) = true := by decide +kernel

/-- RM1. -/
theorem test_reset_memory : ends (exec .resetMemory { refState 16 [] [] with dev := latchedDev }) (fun t =>
    t.seq.resCode == 0 && !t.dev.wel && !t.dev.busy && t.env.now == 16) = true := by decide +kernel

/-- RD1; and the first three steps are ISSUE's (rules R104, R141). -/
theorem test_read : ends (exec (.read 0x1000 4)
    (refState 13 [(0x1000, 0x11), (0x1001, 0x22), (0x1002, 0x33), (0x1003, 0x44)] [])) (fun t =>
    t.seq.resCode == 0 && t.host.hbuf == [(0, 0x11), (1, 0x22), (2, 0x33), (3, 0x44)] && t.env.now == 13
    && (t.env.trace.reverse.take 3).map (fun e => e.pc.map Activation.proc)
      == [[.waitFlag, .issue, .read], [.issue, .read], [.issue, .read]]) = true := by
  decide +kernel

/-- RD8. -/
theorem test_read_on_tc_alone : ends (exec (.read 0 3)
    (anyState ([draw idleFlags 0, draw idleFlags 0, draw idleFlags 0, draw tcFlags 0, draw tcFlags 0x11, draw tcFlags 0,
      draw tcFlags 0x22, draw tcFlags 0, draw tcFlags 0x33, draw tcFlags 0]))) (fun t =>
    t.seq.resCode == 0 && t.host.hbuf == [(0, 0x11), (1, 0x22), (2, 0x33)]) = true := by decide +kernel

/-- W5: two chunks of one byte. -/
theorem test_write_two_pages : ends (exec (.write 0xFF 2) (refState 48 [] [(0, 0xAA), (1, 0xBB)])) (fun t =>
    t.seq.resCode == 0 && t.dev.mem == [(0xFF, 0xAA), (0x100, 0xBB)] && t.env.now == 48) = true := by decide +kernel

/-- E1. -/
theorem test_erase : ends (exec (.erase 0x1000 .b4K) (refState 24 [(0xFFF, 1), (0x1000, 2), (0x1FFF, 3), (0x2000, 4)] []))
    (fun t => t.seq.resCode == 0 && t.seq.tmoDev == 80000 && t.dev.mem == [(0xFFF, 1), (0x2000, 4)]
      && t.env.now == 24) = true := by decide +kernel

/-- E4. -/
theorem test_erase_all : ends (exec (.erase 0x123456 .all) (refState 22 [(0, 1), (0x7FFFFF, 2)] [])) (fun t =>
    t.seq.resCode == 0 && t.seq.tmoDev == 25000000 && t.dev.mem == [] && t.env.now == 22) = true := by decide +kernel

/-- E5. -/
theorem test_chip_erase : ends (exec .chipErase (refState 22 [(0, 1), (0x7FFFFF, 2)] [])) (fun t =>
    t.seq.resCode == 0 && t.dev.mem == [] && t.env.now == 22) = true := by decide +kernel

/-- I1. -/
theorem test_init_bus : ends (exec .initBus
    { refState 18 [] [] with bri := Bri.powerUp, seq := Seq.reset }) (fun t =>
    t.seq.resCode == 0 && t.seq.inited && t.bri.en && t.env.now == 18) = true := by decide +kernel

/-- I7. -/
theorem test_deinit_bus : ends (exec .deinitBus (anyState [])) (fun t =>
    t.seq.resCode == 0 && !t.seq.inited && !t.bri.en && t.env.now == 1) = true := by decide +kernel

/-- I4. -/
theorem test_refused_before_init : ends (exec (.read 0 1) State.reset) (fun t =>
    t.seq.resCode == 0xFE && t.seq.resCause == 4 && t.seq.resValue == 0) = true := by decide +kernel

/-- I9. -/
theorem test_illegal_command : ends (step (State.reset.withFetchWord 8 0x0C)) (fun t =>
    t.seq.resCode == 0xFF && t.seq.resCause == 5 && t.seq.cmdOp == 0x0C && t.env.now == 0) = true := by decide +kernel

/-- A13. -/
theorem test_abi_initialize : ends (exec .abiInitialize
    { refState 18 [] [] with bri := Bri.powerUp, seq := Seq.reset }) (fun t =>
    t.seq.resCode == 0 && t.seq.resValue == 1 && t.seq.inited) = true := by decide +kernel

/-- As A10, on W5's range: the mask of 28 bits. -/
theorem test_abi_program : ends (exec (.abiProgram 0x900000FF 2) (refState 48 [] [(0, 0xAA), (1, 0xBB)])) (fun t =>
    t.seq.resValue == 1 && t.dev.mem == [(0xFF, 0xAA), (0x100, 0xBB)]) = true := by decide +kernel

/-- A1. -/
theorem test_abi_erase_range : ends (exec (.abiEraseRange 0x1050 0x2FFF)
    (refState 48 [(0xFFF, 1), (0x1000, 2), (0x2FFF, 3), (0x3000, 4)] [])) (fun t =>
    t.seq.resValue == 1 && t.seq.erAddr == 0x3000 && t.dev.mem == [(0xFFF, 1), (0x3000, 4)]) = true := by decide +kernel

/-- A5. -/
theorem test_abi_erase_range_empty : ends (exec (.abiEraseRange 0x2000 0x1FFF) (anyState [])) (fun t =>
    t.seq.resValue == 1 && t.env.now == 0) = true := by decide +kernel

/-- A12. -/
theorem test_abi_verify : ends (exec .abiVerify State.reset) (fun t =>
    t.seq.resValue == 0 && t.seq.resCode == 0 && t.seq.done) = true := by decide +kernel

/-- Rule R191, with CFG-T's status bytes: 0x03 is busy with latch. -/
theorem test_rdsr : ends (exec .rdsr (devState busyDev)) (fun t => (supplyMany 1 t).1 == [0x03]) = true := by
  decide +kernel

/-- Rules R192 and R193. -/
theorem test_wren : ends (exec .wren (devState Dev.powerUp)) (fun t => statusByte {} t.dev == 0x02) = true := by
  decide +kernel
theorem test_wrdi : ends (exec .wrdi (devState latchedDev)) (fun t => statusByte {} t.dev == 0x00) = true := by
  decide +kernel

/-- Rules R194 and R195. -/
theorem test_rsten : ends (exec .rsten (devState busyDev)) (fun t => t.dev.armed && t.dev.busy) = true := by
  decide +kernel
theorem test_rst : ends (exec .rst (devState { latchedDev with armed := true })) (fun t =>
    t.dev.op == .reset && statusByte {} t.dev == 0x01 && t.dev.mem == latchedDev.mem) = true := by decide +kernel

/-- Rule R196. -/
theorem test_qread : ends (exec (.qread 0x1004 3) (devState latchedDev)) (fun t =>
    (supplyMany 3 t).1 == [0xFF, 0x34, 0xFF]) = true := by decide +kernel

/-- Rule R197: 0xFF bytes take the data. -/
theorem test_qpp : ends (exec (.qpp 0xC9 [0xAB, 0xCD]) (devState latchedDev)) (fun t =>
    (deviceEnd t).dev.mem == [(0xC8, 0x12), (0xC9, 0xAB), (0xCA, 0xCD), (0x1005, 0x34), (0x8000, 0x56)]
      && statusByte {} t.dev == 0x03 && statusByte {} (deviceEnd t).dev == 0x00) = true := by decide +kernel

/-- Rules R198 to R202. -/
theorem test_se4k : ends (exec (.se4k 0x1234) (devState latchedDev)) (fun t =>
    (deviceEnd t).dev.mem == [(0xC8, 0x12), (0x8000, 0x56)]) = true := by decide +kernel
theorem test_be32k : ends (exec (.be32k 0x7FFF) (devState latchedDev)) (fun t =>
    (deviceEnd t).dev.mem == [(0x8000, 0x56)]) = true := by decide +kernel
theorem test_be64k : ends (exec (.be64k 0x7FFF) (devState latchedDev)) (fun t =>
    (deviceEnd t).dev.mem == []) = true := by decide +kernel
theorem test_ce : ends (exec .ce (devState latchedDev)) (fun t => (deviceEnd t).dev.mem == []) = true := by
  decide +kernel

/-! ### Witnesses: states and operands that meet the hypotheses of each obligation -/

theorem with_next {P : Prop} {o : Host.Outcome State Fault Refusal} {p : State → Bool} (hp : P) (h : ends o p = true) :
    ∃ t, P ∧ o = .next t ∧ p t = true :=
  (ends_next h).elim fun t ht => ⟨t, hp, ht⟩

/-- One word for each clause: H1 to H19, and H22 for the ignored bits of the variant field. -/
theorem witness_HostDecodeReadsOperands :
    ([0x00000000000000000000000001, 0x000003E8000000000000000002, 0x00000120000000000000300003,
      0x00000000000000000000000004, 0x00000000000000000000000005, 0x000000000000012C000010C806,
      0x000000000000012C000010C807, 0x00000000000000000000000009, 0x0000000000000000000000000A,
      0x0000000000000000000000000B, 0x00000000000000000000000010, 0x000000000000012C900000C811,
      0x90002FFF000000009000105012, 0x00000000000000000000000013] : List HostWord).map (fun w => w.extractLsb' 0 8) =
      ([0x01, 0x02, 0x03, 0x04, 0x05, 0x06, 0x07, 0x09, 0x0A, 0x0B, 0x10, 0x11, 0x12, 0x13] : List Byte)
    ∧ ([0x00000000000000000000100008, 0x00000001000000000000800008, 0xFFFFFFFE000000000000123408,
      0x00000003000000000000000008] : List HostWord).map (fun w => (w.extractLsb' 0 8, w.extractLsb' 72 2)) =
      ([(8, 0), (8, 1), (8, 2), (8, 3)] : List (Byte × BitVec 2)) := by decide +kernel

theorem witness_HostDecodeEncode : encodeHost (.sendCommand 0x20 (some 0x3000)) = some 0x00000120000000000000300003 := by
  decide +kernel

theorem witness_FrameDecodeEncode : Cfg.wf {} = true ∧ Instr.wf {} (.qpp 0xC8 [1, 2]) = true
    ∧ encodeFrame {} (.qpp 0xC8 [1, 2]) = some { opcode := 0x32, addr := some 0xC8, addrLines := .one, dummyCycles := 0
                                                 dataLines := .four, data := .write [1, 2] } := by decide +kernel

/-- Both clauses: a program whose address comes on the configured lines, and on four. -/
theorem witness_FrameDecodeSound : Cfg.wf {} = true
    ∧ readsFrame { opcode := 0x32, addr := some 0xC8, addrLines := .one, dummyCycles := 0, dataLines := .four
                   data := .write [1] } (.qpp 0xC8 [1]) = true
    ∧ readsFrame { opcode := 0x32, addr := some 0xC8, addrLines := .four, dummyCycles := 0, dataLines := .four
                   data := .write [1] } (.qpp 0xC8 [1]) = true := by decide +kernel

/-- `s` with what the host does next. -/
def doing (acts : List HostAct) (s : State) : State := s.withHost { s.host with script := acts }

theorem witness_IllegalCommandCompletes : (doing [.command 0x14] State.reset).seq.rdy = true
    ∧ (doing [.command 0x14] State.reset).host.script = .command 0x14 :: []
    ∧ hostOp 0x14 ∉ ([0x01, 0x02, 0x03, 0x04, 0x05, 0x06, 0x07, 0x08, 0x09, 0x0A, 0x0B, 0x10, 0x11, 0x12, 0x13] : List Byte)
    := by decide +kernel

theorem witness_StepKeepsInv : ∃ t, (doing [.command 0x01] (refState 6 [(0, 1)] [(0, 2)])).Inv
    ∧ step (doing [.command 0x01] (refState 6 [(0, 1)] [(0, 2)])) = .next t ∧ (t.seq.resCode == 0) = true :=
  with_next (by decide +kernel) (by decide +kernel)

theorem witness_NothingWritesCfg : ∃ t, True ∧ step (doing [.command 0x01] (refState 6 [] [])) = .next t
    ∧ (t.seq.done && t.env.now == 6) = true := with_next trivial (by decide +kernel)

theorem witness_StepRunsPresentedCommand : (doing [.command 0x01] State.reset).seq.rdy = true
    ∧ reads 0x01 .readStatus = true ∧ (doing [.command 0x01] State.reset).host.script = .command 0x01 :: [] := by
  decide +kernel

/-- One state for each clause: a store, and nothing to do. -/
theorem witness_HostStoresAndIdleTurns :
    ((doing [.store 5 1] (anyState [])).seq.rdy = true ∧ Mem.wf (doing [.store 5 1] (anyState [])).host.hbuf = true
      ∧ (doing [.store 5 1] (anyState [])).host.script = .store 5 1 :: [])
    ∧ (anyState []).seq.rdy = true ∧ (anyState []).seq.pc = [] ∧ (anyState []).host.script = []
    ∧ Undisturbed (anyState []) := by decide +kernel

theorem witness_NotInitialisedRefusal : isGated .chipErase = true ∧ State.reset.seq.inited = false := by decide

/-- One run for each clause. -/
theorem witness_InitedFlag :
    (∃ t, State.reset.host.resetAt = none ∧ exec .initBus (smallState (healthy 18 0)) = .next t
      ∧ (t.seq.resCode == 0) = true)
    ∧ (∃ t, True ∧ exec .deinitBus (smallState []) = .next t ∧ (!t.seq.inited) = true)
    ∧ ∃ t, True ∧ exec .readStatus (smallState (healthy 6 0)) = .next t ∧ t.seq.inited = true :=
  ⟨with_next rfl (by decide +kernel), with_next trivial (by decide +kernel), with_next trivial (by decide +kernel)⟩

theorem witness_EveryOperationCompletes : isHostOp (.write 0xFF 2) = true ∧ (smallState []).cfg.wf = true
    ∧ Undisturbed (smallState []) := by decide +kernel

theorem witness_ResultsAreListed : ∃ t, (isHostOp (.waitNotBusy 0) = true ∧ (smallState []).host.resetAt = none)
    ∧ exec (.waitNotBusy 0) (smallState []) = .next t ∧ (t.seq.resCode == 2) = true :=
  with_next (by decide) (by decide +kernel)

theorem witness_OperationStepBound : ∃ t, (smallState (healthy 48 2)).cfg.wf = true
    ∧ exec (.write 0xFF 2) (smallState (healthy 48 2)) = .next t ∧ (t.env.now == 48) = true :=
  with_next (by decide +kernel) (by decide +kernel)

/-- T6 (met at the second sample) and T5 (never met). -/
theorem witness_WaitFlagCounts : Undisturbed (anyState [draw (flagSet true true false) 0, draw idleFlags 0, draw tcFlags 0])
    ∧ 1 < (2 : Word).toNat
    ∧ (∀ k, k < 1 → flagsMet maskBusy false
        (drawAt (anyState [draw (flagSet true true false) 0, draw idleFlags 0, draw tcFlags 0]) (2 * k)).flags = false)
    ∧ flagsMet maskBusy false
        (drawAt (anyState [draw (flagSet true true false) 0, draw idleFlags 0, draw tcFlags 0]) (2 * 1)).flags = true
    ∧ ∀ k, k < (3 : Word).toNat → flagsMet maskTc true
        (drawAt (anyState (List.replicate 6 (draw idleFlags 0))) (2 * k)).flags = false := by decide +kernel

theorem witness_ReadStatusCompletes : Answered (needsStatus .any) (anyState (giving (needsStatus .any)))
    ∧ (anyState (giving (needsStatus .any))).seq.inited = true := by decide +kernel

/-- Busy once, then not, with the last unit of the budget. -/
theorem witness_WaitNotBusyCompletes :
    Answered (needsBusy 1 ++ needsStatus .deviceIdle) (anyState (giving (needsBusy 1 ++ needsStatus .deviceIdle)))
    ∧ 1 < (2 : Word).toNat
    ∧ (anyState (giving (needsBusy 1 ++ needsStatus .deviceIdle))).seq.inited = true := by decide +kernel

/-- A budget of 2, a budget of 0, RM3, E-F3a and C-F3, with small budgets. -/
theorem witness_WaitNotBusyTimesOut :
    (anyState []).seq.inited = true
    ∧ Answered (needsBusy (2 : Word).toNat) (anyState (giving (needsBusy 2)))
    ∧ Answered (needsBusy (0 : Word).toNat) (anyState [])
    ∧ Answered (needsSend ++ needsSend ++ needsBusy smallCfg.resetWaitTicks.toNat)
        (smallState (giving (needsSend ++ needsSend ++ needsBusy 1)))
    ∧ smallCfg.welRetry ≠ 0 ∧ (variantTicks smallCfg .b4K).toNat = 2 ∧ (variantTicks smallCfg .all).toNat = 3
    ∧ Answered (needsEnable ++ needsSend ++ needsBusy 2)
        (smallState (giving (needsEnable ++ needsSend ++ needsBusy 2)))
    ∧ Answered (needsEnable ++ needsSend ++ needsBusy 3)
        (smallState (giving (needsEnable ++ needsSend ++ needsBusy 3))) := by decide +kernel

theorem witness_SendCommandCompletes : Answered needsSend (anyState (giving needsSend))
    ∧ (anyState (giving needsSend)).seq.inited = true := by decide +kernel

theorem witness_WriteEnableCompletes :
    let l := needsSend ++ needsNoLatch 1 ++ needsStatus .latched
    Answered l (anyState (giving l)) ∧ (anyState (giving l)).seq.inited = true
    ∧ 1 < (anyState (giving l)).cfg.welRetry.toNat := by decide +kernel

theorem witness_WriteEnableNeverLatched :
    Answered (needsSend ++ needsNoLatch smallCfg.welRetry.toNat) (smallState (giving (needsSend ++ needsNoLatch 1)))
    ∧ (smallState []).seq.inited = true := by decide +kernel

/-- RM1: the closing status byte is 0x00. -/
theorem witness_ResetMemoryCompletes : Answered needsReset (anyState (giving needsReset))
    ∧ inputByte (anyState (giving needsReset)) 15 = 0x00 ∧ (anyState []).cfg.resetWaitTicks ≠ 0
    ∧ (anyState []).seq.inited = true := by decide +kernel

theorem witness_ReadCompletes :
    let l := needsRead (2 : Word).toNat ++ [.complete, .any]
    Answered l (anyState (giving l)) ∧ (anyState (giving l)).seq.inited = true ∧ (2 : Word) ≠ 0
    ∧ Mem.wf (anyState (giving l)).host.hbuf = true := by decide +kernel

/-- One byte of two, then neither flag. -/
theorem witness_ReadDrainTimesOut :
    let s := smallState (giving (needsRead 1) ++ stuck 2)
    Answered (needsRead 1) s ∧ s.seq.inited = true ∧ 1 < (2 : Word).toNat ∧ Mem.wf s.host.hbuf = true
    ∧ ∀ j, j < s.cfg.busWaitTicks.toNat → flagsMet maskFtTc true (drawAt s (2 * 1 + 3 + 2 * j)).flags = false := by
  decide +kernel

theorem witness_ZeroLengthDoesNothing : (anyState []).seq.inited = true := by decide

/-- W5: two chunks, each closed by the status byte 0x00. -/
theorem witness_WriteCompletes :
    let s := anyState (giving (needsWrite {} 0xFF 2))
    s.cfg.wf = true ∧ s.seq.inited = true ∧ (2 : Word) ≠ 0 ∧ (0xFF : Word).toNat + (2 : Word).toNat < 2 ^ 32
    ∧ s.cfg.welRetry ≠ 0 ∧ s.cfg.programWaitTicks ≠ 0
    ∧ Answered (needsWrite s.cfg (0xFF : Word).toNat (2 : Word).toNat) s ∧ inputByte s 23 = 0x00 ∧ inputByte s 47 = 0x00
    := by decide +kernel

/-- W5, an inner chunk boundary and both ends, in a run; and the chunks of W1 and W12. -/
theorem witness_ChunksTileTheRange : ∃ t, ((refState 48 [] []).cfg.wf = true ∧ (refState 48 [] []).host.resetAt = none
      ∧ (2 : Word) ≠ 0 ∧ (0xFF : Word).toNat + (2 : Word).toNat < 2 ^ 32 ∧ chunkCount 256 0xFF 2 = 2
      ∧ chunkStart 256 0xFF 1 = 0x100 ∧ chunkEnd 256 0xFF 2 1 = 0x101 ∧ chunkCount 256 0 1024 = 4
      ∧ chunkCount 256 0xC8 300 = 2 ∧ chunkSize 256 0xC8 300 0 = 56 ∧ chunkSize 256 0xC8 300 1 = 244)
    ∧ exec (.write 0xFF 2) (refState 48 [] []) = .next t
    ∧ (t.seq.resCode == 0 && (newFrames (refState 48 [] []) t).filter (fun x => x.opcode == 0x32)
        == (List.range 2).map (chunkTxn {} 0xFF 2)) = true := with_next (by decide +kernel) (by decide +kernel)

/-- W-F1, W-F2, W-F3 (after one byte), W-F4 and W-F5 in the second chunk of a write of 1 and 2 bytes. -/
theorem witness_WriteStageFailures :
    let before := needsChunks smallCfg 0xFF 3 1
    let after := fun (l : List Need) (tail : List Draw) => smallState (giving (before ++ l) ++ tail)
    (smallState []).cfg.wf = true ∧ (smallState []).seq.inited = true ∧ (3 : Word) ≠ 0
    ∧ (0xFF : Word).toNat + (3 : Word).toNat < 2 ^ 32 ∧ 1 < chunkCount 256 (0xFF : Word).toNat (3 : Word).toNat
    ∧ smallCfg.welRetry ≠ 0 ∧ smallCfg.programWaitTicks ≠ 0 ∧ chunkSize 256 0xFF 3 1 = 2
    ∧ 22 * 1 + 2 * (chunkStart 256 0xFF 1 - 0xFF) = 24
    ∧ Answered (before ++ needsSend ++ needsNoLatch smallCfg.welRetry.toNat) (after (needsSend ++ needsNoLatch 1) [])
    ∧ (Answered (before ++ needsEnable) (after needsEnable (stuck 2))
      ∧ ∀ j, j < 2 → (drawAt (after needsEnable (stuck 2)) (24 + 11 + 2 * j)).flags.busy = true)
    ∧ (Answered (before ++ needsFill 1) (after (needsFill 1) (stuck 2))
      ∧ ∀ j, j < 2 → (drawAt (after (needsFill 1) (stuck 2)) (24 + 14 + 2 * 1 + 2 * j)).flags.ft = false)
    ∧ (Answered (before ++ needsFill 2) (after (needsFill 2) (stuck 2))
      ∧ ∀ j, j < 2 → (drawAt (after (needsFill 2) (stuck 2)) (24 + 14 + 2 * 2 + 2 * j)).flags.tc = false)
    ∧ Answered (before ++ needsFill 2 ++ [.complete, .any] ++ needsBusy smallCfg.programWaitTicks.toNat)
        (after (needsFill 2 ++ [.complete, .any] ++ needsBusy 1) []) := by decide +kernel

/-- E1: the closing status byte is 0x00. -/
theorem witness_EraseCompletes : BlockSize.b32K ≠ .all ∧ Answered needsErase (anyState (giving needsErase))
    ∧ inputByte (anyState (giving needsErase)) 21 = 0x00 ∧ (anyState []).cfg.welRetry ≠ 0
    ∧ (∀ v ∈ [BlockSize.b4K, .b32K, .b64K], variantTicks {} v ≠ 0) ∧ (anyState []).seq.inited = true := by decide +kernel

/-- E5. -/
theorem witness_ChipEraseCompletes : Answered needsChip (anyState (giving needsChip))
    ∧ inputByte (anyState (giving needsChip)) 21 = 0x00 ∧ (anyState []).cfg.welRetry ≠ 0
    ∧ variantTicks (anyState []).cfg .all ≠ 0 ∧ (anyState []).seq.inited = true := by decide +kernel

/-- I1. -/
theorem witness_InitBusCompletes :
    Answered ([.any, .any] ++ needsReset) (anyState (giving ([.any, .any] ++ needsReset)))
    ∧ inputByte (anyState (giving ([.any, .any] ++ needsReset))) 17 = 0x00 ∧ (anyState []).cfg.resetWaitTicks ≠ 0 := by
  decide +kernel

theorem witness_DeinitBusCompletes : (anyState []).host.resetAt ≠ some (anyState []).env.now
    ∧ (refState 1 [] []).host.resetAt ≠ some (refState 1 [] []).env.now := by decide

theorem witness_AbiProgramCompletes :
    let s := anyState (giving (needsWrite {} 0xFF 2))
    s.cfg.wf = true ∧ s.seq.inited = true ∧ (2 : Word) ≠ 0
    ∧ ((0x900000FF : Word) &&& s.cfg.abiAddrMask).toNat + (2 : Word).toNat < 2 ^ 32
    ∧ s.cfg.welRetry ≠ 0 ∧ s.cfg.programWaitTicks ≠ 0
    ∧ Answered (needsWrite s.cfg ((0x900000FF : Word) &&& s.cfg.abiAddrMask).toNat (2 : Word).toNat) s := by
  decide +kernel

/-- A1 (two blocks from 0x1000, the end in the second), A5 (none), and A4 (the end on a boundary). -/
theorem witness_AbiEraseRangeCompletes :
    let s := anyState (giving (rounds 2 needsErase))
    s.cfg.wf = true ∧ s.seq.inited = true ∧ s.cfg.welRetry ≠ 0 ∧ variantTicks s.cfg .b4K ≠ 0
    ∧ Answered (rounds 2 needsErase) s
    ∧ rangeStart s.cfg 0x1050 = 0x1000 ∧ rangeEnd s.cfg 0x2FFF = 0x2FFF ∧ blockCount s.cfg 0x1050 0x2FFF = 2
    ∧ rangeEnd s.cfg 0x1FFF < rangeStart s.cfg 0x2000 ∧ blockCount s.cfg 0x2000 0x1FFF = 0
    ∧ blockCount s.cfg 0x1FFF 0x2000 = 2 := by decide +kernel

/-- A state for each clause: a stuck bus at once; RS3; RD7; E-F2a; E-F2b; E-F4. -/
theorem witness_StuckBusIsReported :
    let after := fun l => smallState (giving l ++ stuck 2)
    (after []).seq.inited = true ∧ smallCfg.busWaitTicks.toNat = 2 ∧ smallCfg.welRetry ≠ 0
    ∧ variantTicks smallCfg .b4K ≠ 0 ∧ (1 : Word) ≠ 0 ∧ Mem.wf (after []).host.hbuf = true
    ∧ (Undisturbed (after []) ∧ ∀ j, j < 2 → (drawAt (after []) (2 * j)).flags.busy = true)
    ∧ (Answered needsIssue (after needsIssue)
      ∧ ∀ j, j < 2 → (drawAt (after needsIssue) (3 + 2 * j)).flags.tc = false)
    ∧ (Answered (needsRead (1 : Word).toNat) (after (needsRead 1))
      ∧ ∀ j, j < 2 → (drawAt (after (needsRead 1)) (3 + 2 * 1 + 2 * j)).flags.tc = false)
    ∧ (Answered needsEnable (after needsEnable)
      ∧ ∀ j, j < 2 → (drawAt (after needsEnable) (11 + 2 * j)).flags.busy = true)
    ∧ (Answered (needsEnable ++ needsIssue) (after (needsEnable ++ needsIssue))
      ∧ ∀ j, j < 2 → (drawAt (after (needsEnable ++ needsIssue)) (14 + 2 * j)).flags.tc = false)
    ∧ (Answered needsChip (after needsChip)
      ∧ ∀ j, j < 2 → (drawAt (after needsChip) (22 + 2 * j)).flags.busy = true) := by decide +kernel

theorem witness_HostBufferFrame : ∃ t, Mem.wf [(5, (1 : Byte))] = true
    ∧ exec (.read 0x1000 2) (refState 9 [] [(5, 1)]) = .next t ∧ (memRead t.host.hbuf 5 == 1) = true :=
  with_next (by decide) (by decide +kernel)

theorem witness_FramesAreTheOperationsOwn : ∃ t, True ∧ exec (.erase 0 .all) (refState 22 [] []) = .next t
    ∧ ((newFrames (refState 22 [] []) t).map Txn.opcode == [0x06, 0x05, 0xC7, 0x05]) = true :=
  with_next trivial (by decide +kernel)

theorem witness_EveryFrameWellFormed : ∃ t, (refState 48 [] []).cfg.wf = true
    ∧ exec (.write 0xFF 2) (refState 48 [] []) = .next t ∧ ((newFrames (refState 48 [] []) t).length == 8) = true :=
  with_next (by decide +kernel) (by decide +kernel)

theorem witness_LatchConfirmedBeforeUse : ∃ t, (refState 22 [] []).cfg.wf = true
    ∧ exec .chipErase (refState 22 [] []) = .next t
    ∧ ((newFrames (refState 22 [] []) t).any (consumesLatch {})) = true :=
  with_next (by decide +kernel) (by decide +kernel)

theorem witness_NeverOverruns : (refState 0 [] []).cfg.wf = true := by decide +kernel

/-- Another value in every working register. -/
def scrambled (s : State) : State :=
  s.withSeq { s.seq with curAddr := 1, curSize := 2, endAddr := 3, bufOff := 4, idx := 5, tmoBus := 6, tmoDev := 7
                         srSnap := 8, erAddr := 9, erEnd := 10, txn := txnCmd 0xC7, cmdOp := 11, cmdLen := 12 }

theorem witness_WorkingRegistersUnobservable : ∃ t, sameButWorking (refState 9 [] []) (scrambled (refState 9 [] []))
    ∧ exec (.read 0 2) (refState 9 [] []) = .next t ∧ (t.seq.resCode == 0) = true :=
  with_next (by decide +kernel) (by decide +kernel)

/-- A reset at the third step, a reset after the last, and a reset while SEQ waits. -/
def resetting (k : Nat) (s : State) : State := s.withHost { s.host with resetAt := some k }

theorem witness_HostResetEndsOperation :
    (∃ t, isHostOp .readStatus = true ∧ exec .readStatus (resetting 3 (refState 6 [] [])) = .next t
      ∧ (t.host.resetAt == none && t.env.now == 3) = true)
    ∧ (∃ t, True ∧ exec .readStatus (resetting 6 (refState 6 [] [])) = .next t
      ∧ (t.host.resetAt == some 6 && t.env.now == 6) = true)
    ∧ (resetting 0 (refState 0 [] [])).seq.rdy = true ∧ (resetting 0 (refState 0 [] [])).host.script = []
    ∧ (resetting 0 (refState 0 [] [])).host.resetAt = some (resetting 0 (refState 0 [] [])).env.now :=
  ⟨with_next rfl (by decide +kernel), with_next trivial (by decide +kernel), by decide⟩

/-- A status register with every other bit set, its tested bits at 3 and 6. -/
theorem witness_RdsrSendsTheStatus : Cfg.wf { srBusyBit := 3, srWelBit := 6 } = true
    ∧ statusByte { srBusyBit := 3, srWelBit := 6 } { busyDev with other := 0xFF, wel := false } = 0xBF := by
  decide +kernel

theorem witness_LatchCommands : (devState latchedDev).dev.busy = false ∧ (devState busyDev).dev.busy = true := by decide

theorem witness_ResetPair : (devState busyDev).dev.armed = false
    ∧ (devState { busyDev with armed := true }).dev.armed = true
    ∧ Mem.wf (devState { busyDev with armed := true }).dev.mem = true := by decide

theorem witness_IgnoredFrames : ([1, 2] : List Byte) ≠ [] ∧ (devState busyDev).dev.busy = true
    ∧ (devState Dev.powerUp).dev.wel = false := by decide

/-- The last byte of the array, and one more. -/
theorem witness_QreadSendsTheArray : (1 : Word) ≠ 0 ∧ (2 : Word) ≠ 0 ∧ (devState latchedDev).dev.busy = false
    ∧ (0x7FFFFF : Addr24).toNat + (1 : Word).toNat ≤ (devState latchedDev).cfg.capacity
    ∧ ¬ (0x7FFFFF : Addr24).toNat + (2 : Word).toNat ≤ (devState latchedDev).cfg.capacity
    ∧ (devState busyDev).dev.busy = true := by decide +kernel

/-- The last two bytes of the array's last page, and three bytes from there, the third at the page's start. -/
theorem witness_QppPrograms :
    (devState latchedDev).cfg.wf = true ∧ Mem.wf (devState latchedDev).dev.mem = true
    ∧ (devState latchedDev).dev.busy = false ∧ (devState latchedDev).dev.wel = true
    ∧ ∀ d ∈ ([[1, 2], [1, 2, 3]] : List (List Byte)), d ≠ [] ∧ d.length ≤ 256
      ∧ ∀ i, i < d.length →
        (0x7FFFFE : Addr24).toNat - (0x7FFFFE : Addr24).toNat % 256 + ((0x7FFFFE : Addr24).toNat % 256 + i) % 256
          < (devState latchedDev).cfg.capacity
        ∧ memRead (devState latchedDev).dev.mem
            ((0x7FFFFE : Addr24).toNat - (0x7FFFFE : Addr24).toNat % 256 + ((0x7FFFFE : Addr24).toNat % 256 + i) % 256)
          = 0xFF := by decide +kernel

/-- The last block of each size. -/
theorem witness_ErasesFillTheirBlock :
    Mem.wf (devState latchedDev).dev.mem = true ∧ (devState latchedDev).dev.busy = false
    ∧ (devState latchedDev).dev.wel = true
    ∧ (∀ v ∈ [BlockSize.b4K, .b32K, .b64K],
        (0x7FFFFF : Addr24).toNat - (0x7FFFFF : Addr24).toNat % variantSize {} v + variantSize {} v
          ≤ (devState latchedDev).cfg.capacity)
    ∧ 0 + variantSize {} .all ≤ (devState latchedDev).cfg.capacity := by decide +kernel

theorem witness_WhereTheModelStops : (acceptCommand 0 State.reset).seq.rdy = false
    ∧ (cmdFrame 0xAB).opcode ∉ (devState latchedDev).cfg.opcodes
    ∧ (devState latchedDev).cfg.capacity ≤ (0x800000 : Addr24).toNat
    ∧ (devState latchedDev).dev.busy = false ∧ (devState latchedDev).dev.wel = true
    ∧ { refState 0 [] [] with bri := Bri.powerUp }.env.model = .ref
    ∧ { refState 0 [] [] with bri := Bri.powerUp }.bri.en = false
    ∧ { refState 0 [] [] with bri := Bri.powerUp }.cfg.busWaitTicks ≠ 0 := by decide +kernel

theorem witness_RefInitBusReadies : ∃ t, ({ refState 18 [] [] with bri := Bri.powerUp, dev := busyDev }.env.model = .ref
      ∧ Cfg.wf {} = true ∧ Cfg.capacity {} ≤ 2 ^ 24)
    ∧ exec .initBus { refState 18 [] [] with bri := Bri.powerUp, dev := Dev.powerUp } = .next t
    ∧ (t.seq.resCode == 0) = true := with_next (by decide +kernel) (by decide +kernel)

theorem witness_RefReadReturnsTheArray : ∃ t, (RefReady (refState 9 [(0x1000, 1)] [])
      ∧ Mem.wf (refState 9 [(0x1000, 1)] []).host.hbuf = true
      ∧ (0x1000 : Word).toNat + (2 : Word).toNat ≤ (refState 9 [(0x1000, 1)] []).cfg.capacity)
    ∧ exec (.read 0x1000 2) (refState 9 [(0x1000, 1)] []) = .next t ∧ (t.seq.resCode == 0) = true :=
  with_next (by decide +kernel) (by decide +kernel)

theorem witness_RefWritePrograms : ∃ t, (RefReady (refState 48 [(0xFE, 1)] [(0, 0xAA)])
      ∧ Mem.wf (refState 48 [(0xFE, 1)] [(0, 0xAA)]).dev.mem = true
      ∧ (0xFF : Word).toNat + (2 : Word).toNat ≤ (refState 48 [(0xFE, 1)] [(0, 0xAA)]).cfg.capacity
      ∧ ∀ i, i < (2 : Word).toNat → memRead [(0xFE, (1 : Byte))] ((0xFF : Word).toNat + i) = 0xFF)
    ∧ exec (.write 0xFF 2) (refState 48 [(0xFE, 1)] [(0, 0xAA)]) = .next t ∧ (t.seq.resCode == 0) = true :=
  with_next (by decide +kernel) (by decide +kernel)

/-- Both operations succeed, one after the other. -/
theorem witness_RefRoundTrip :
    ends (exec (.write 0xFF 2) (refState 57 [] [(0, 0xAA)])) (fun t => t.seq.resCode == 0
      && ends (exec (.read 0xFF 2) t) (fun u => u.seq.resCode == 0 && u.host.hbuf == [(0, 0xAA)])) = true := by
  decide +kernel

theorem witness_RefEraseErases : ∃ t, (RefReady (refState 24 [(0x7FFFFF, 1)] [])
      ∧ Mem.wf (refState 24 [(0x7FFFFF, 1)] []).dev.mem = true
      ∧ (0x7FFFFF : Word).toNat < (refState 24 [(0x7FFFFF, 1)] []).cfg.capacity)
    ∧ exec (.erase 0x7FFFFF .b64K) (refState 24 [(0x7FFFFF, 1)] []) = .next t ∧ (t.seq.resCode == 0) = true :=
  with_next (by decide +kernel) (by decide +kernel)

theorem witness_RefPromptEraseCompletes :
    let s := refState 24 [(0x1234, 1)] []
    RefReady s ∧ s.bri.busy = false ∧ Mem.wf s.dev.mem = true ∧ s.cfg.busWaitTicks ≠ 0
    ∧ s.cfg.welRetry ≠ 0 ∧ variantTicks s.cfg .b4K ≠ 0
    ∧ s.env.inputs = List.replicate 24 promptDraw
    ∧ (0x1234 : Word).toNat - (0x1234 : Word).toNat % s.cfg.subsectorSize + s.cfg.subsectorSize ≤ s.cfg.capacity := by
  decide +kernel

end Sys2Proof.Tests
end

section
/-! The host command decoder (rules R91, R95, R97, R99), one equation per operation code, and the port of a ready SEQ to
which a command is presented (rule R25). -/

namespace Sys2Proof

variable {w : HostWord}

/-! ### Operand bits: a field of `CMD_ARG` is the field 72 places up in the host word -/

theorem hostArg_extractLsb' (w : HostWord) (len : Nat) (h : len ≤ 32) :
    (hostArg w).extractLsb' 0 len = w.extractLsb' 72 len := by
  ext i hi
  have hi32 : i < 32 := by omega
  simp [hostArg, hi32]

theorem hostArg_getLsbD (w : HostWord) {i : Nat} (h : i < 32) : (hostArg w).getLsbD i = w.getLsbD (72 + i) := by
  simp [hostArg, h]

/-- The operands of SEND_COMMAND, in bits of the host word (rules R91, R131). -/
theorem decodeSendCommand_hostArg (w : HostWord) (addr : Word) :
    decodeSendCommand addr (hostArg w) =
      .sendCommand (w.extractLsb' 72 8) (if w.getLsbD 80 then some addr else none) := by
  rw [decodeSendCommand, hostArg_extractLsb' w 8 (by decide), hostArg_getLsbD w (by decide)]

/-- The variant of ERASE, in bits of the host word (rule R97). -/
theorem decodeBlockSize_hostArg (w : HostWord) {b : BitVec 2} (h : w.extractLsb' 72 2 = b) :
    decodeBlockSize (hostArg w) = decodeBlockSize (b.setWidth 32) := by
  have hlow : (b.setWidth 32).extractLsb' 0 2 = b := by
    ext i hi
    have hi32 : i < 32 := by omega
    simp [hi, hi32]
  rw [decodeBlockSize, decodeBlockSize, hostArg_extractLsb' w 2 (by decide), h, hlow]

/-! ### The table of rule R95 -/

theorem decodeHost_readStatus (h : hostOp w = 0x01) : decodeHost w = .ok .readStatus := by
  simp [decodeHost, h]

theorem decodeHost_waitNotBusy (h : hostOp w = 0x02) : decodeHost w = .ok (.waitNotBusy (hostArg w)) := by
  simp [decodeHost, h]

theorem decodeHost_sendCommand (h : hostOp w = 0x03) :
    decodeHost w = .ok (decodeSendCommand (hostAddr w) (hostArg w)) := by
  simp [decodeHost, h]

theorem decodeHost_writeEnable (h : hostOp w = 0x04) : decodeHost w = .ok .writeEnable := by
  simp [decodeHost, h]

theorem decodeHost_resetMemory (h : hostOp w = 0x05) : decodeHost w = .ok .resetMemory := by
  simp [decodeHost, h]

theorem decodeHost_read (h : hostOp w = 0x06) : decodeHost w = .ok (.read (hostAddr w) (hostLen w)) := by
  simp [decodeHost, h]

theorem decodeHost_write (h : hostOp w = 0x07) : decodeHost w = .ok (.write (hostAddr w) (hostLen w)) := by
  simp [decodeHost, h]

theorem decodeHost_erase (h : hostOp w = 0x08) :
    decodeHost w = .ok (.erase (hostAddr w) (decodeBlockSize (hostArg w))) := by
  simp [decodeHost, h]

theorem decodeHost_erase_variant {b : BitVec 2} (h : hostOp w = 0x08) (hb : w.extractLsb' 72 2 = b) :
    decodeHost w = .ok (.erase (hostAddr w) (decodeBlockSize (b.setWidth 32))) :=
  decodeBlockSize_hostArg w hb ▸ decodeHost_erase h

theorem decodeHost_chipErase (h : hostOp w = 0x09) : decodeHost w = .ok .chipErase := by
  simp [decodeHost, h]

theorem decodeHost_initBus (h : hostOp w = 0x0A) : decodeHost w = .ok .initBus := by
  simp [decodeHost, h]

theorem decodeHost_deinitBus (h : hostOp w = 0x0B) : decodeHost w = .ok .deinitBus := by
  simp [decodeHost, h]

theorem decodeHost_abiInitialize (h : hostOp w = 0x10) : decodeHost w = .ok .abiInitialize := by
  simp [decodeHost, h]

theorem decodeHost_abiProgram (h : hostOp w = 0x11) :
    decodeHost w = .ok (.abiProgram (hostAddr w) (hostLen w)) := by
  simp [decodeHost, h]

theorem decodeHost_abiEraseRange (h : hostOp w = 0x12) :
    decodeHost w = .ok (.abiEraseRange (hostAddr w) (hostArg w)) := by
  simp [decodeHost, h]

theorem decodeHost_abiVerify (h : hostOp w = 0x13) : decodeHost w = .ok .abiVerify := by
  simp [decodeHost, h]

/-- The fifteen codes of rule R95. -/
def hostCodes : List Byte :=
  [0x01, 0x02, 0x03, 0x04, 0x05, 0x06, 0x07, 0x08, 0x09, 0x0A, 0x0B, 0x10, 0x11, 0x12, 0x13]

/-- Off the table every code is illegal (rule R99): each arm of the decoder but the last is for a code in it. -/
theorem decodeHost_illegal (h : hostOp w ∉ hostCodes) : decodeHost w = .error (.illegalCommand (hostOp w)) := by
  have hnat : (hostOp w).toNat ∉ hostCodes.map BitVec.toNat :=
    mt (List.mem_map_of_injective BitVec.toNat_injective).mp h
  unfold decodeHost
  split
  case h_16 => rfl
  all_goals simp_all [hostCodes]

/-- Settles O2: the equation of each code, its operands read in bits of the host word. -/
theorem hostDecodeReadsOperands : Obligations.HostDecodeReadsOperands := by
  intro w op addr len
  exact ⟨decodeHost_readStatus, decodeHost_waitNotBusy,
    fun h => decodeSendCommand_hostArg w addr ▸ decodeHost_sendCommand h,
    decodeHost_writeEnable, decodeHost_resetMemory, decodeHost_read, decodeHost_write,
    decodeHost_erase_variant, decodeHost_erase_variant, decodeHost_erase_variant, decodeHost_erase_variant,
    decodeHost_chipErase, decodeHost_initBus, decodeHost_deinitBus, decodeHost_abiInitialize, decodeHost_abiProgram,
    decodeHost_abiEraseRange, decodeHost_abiVerify⟩

namespace Machine

/-! ### A command at the port -/

/-- A command presented to a ready SEQ is taken from the host and run (rule R25). -/
theorem step_command {s : State} {rest : List HostAct} (hrdy : s.seq.rdy = true)
    (hscript : s.host.script = .command w :: rest) : step s = runCommand w (takeAct s) := by
  simp [step, portTurn, hrdy, hscript]

/-- A command the decoder rejects is latched and refused, whatever the state (rule R99). -/
theorem runCommand_error {e : DecodeError} (h : decodeHost w = .error e) (s : State) :
    runCommand w s = .next (refuseCommand 0xFF .illegalCommand (acceptCommand w s)) := by
  simp [runCommand, h]

/-- Settles O6: the step of a command off the table is its refusal, of which the laws of the state give each part. -/
theorem illegalCommandCompletes : Obligations.IllegalCommandCompletes := by
  intro s w rest hrdy hscript hillegal
  have hstep : step s = .next (refuseCommand 0xFF .illegalCommand (acceptCommand w (takeAct s))) :=
    (step_command hrdy hscript).trans (runCommand_error (decodeHost_illegal hillegal) _)
  exact ⟨_, hstep, by simp [Cause.code], by simp, by simp, by simp, by simp, by simp [hscript]⟩

end Machine

end Sys2Proof
end

section
/-! The ABI stub ABI_VERIFY (rule R185): it decodes from its code alone and completes at once with success. -/

namespace Sys2Proof

/-- The operation code of a host word is its lowest field (rules R90, R91): the operand fields do not reach it. -/
@[simp] theorem hostOp_hostWord (op : Byte) (addr len arg : Word) : hostOp (hostWord op addr len arg) = op := by
  rw [hostOp, hostWord, BitVec.extractLsb'_append_eq_right]

namespace Machine

/-- An operation that completes with success straight from its entry leaves SEQ as it was but for the result and the
handshake: the record it entered with is gone again (rules R25, R235). -/
theorem complete_enterProc_seq (p : Proc) (value : DWord) (s : State) :
    (complete 0 .none value (enterProc p s)).seq = okSeq value s.seq := by
  simp [okSeq, Cause.code]

/-- ABI_VERIFY has one step, its completion, whatever the state (rule R185). -/
theorem exec_abiVerify (s : State) : exec .abiVerify s = .next (complete 0 .none 0 (enterProc .abiVerify s)) := rfl

/-- Settles O38: the code alone decides the decoding, and the one step of the stub changes only `SEQ`. -/
theorem abiVerifyCompletes : Obligations.AbiVerifyCompletes := by
  refine ⟨fun addr len arg => decodeHost_abiVerify (hostOp_hostWord 0x13 addr len arg), fun s => ?_⟩
  exact ⟨_, exec_abiVerify s, complete_enterProc_seq .abiVerify 0 s, by simp, by simp, by simp [sameSurroundings]⟩

end Machine

end Sys2Proof
end

section
/-! Encoding and decoding are inverse (rules R90 to R97): the fields of a host word, the frame shapes of rule R94 and the
chain of opcode tests of the device's decoder. -/

namespace Sys2Proof

/-! ### Host words -/

/-- The bits of a host word, field by field from the lowest (rule R90). -/
theorem getLsbD_hostWord (op : Byte) (addr len arg : Word) (i : Nat) :
    (hostWord op addr len arg).getLsbD i =
      if i < 8 then op.getLsbD i
      else if i - 8 < 32 then addr.getLsbD (i - 8)
      else if i - 8 - 32 < 32 then len.getLsbD (i - 8 - 32)
      else arg.getLsbD (i - 8 - 32 - 32) := by
  change (arg ++ len ++ addr ++ op).getLsbD i = _
  rw [BitVec.getLsbD_append, BitVec.getLsbD_append, BitVec.getLsbD_append]

@[simp] theorem hostAddr_hostWord (op : Byte) (addr len arg : Word) : hostAddr (hostWord op addr len arg) = addr := by
  ext i hi
  have hlow : ¬ 8 + i < 8 := by omega
  simp [hostAddr, getLsbD_hostWord, hlow, hi]

@[simp] theorem hostLen_hostWord (op : Byte) (addr len arg : Word) : hostLen (hostWord op addr len arg) = len := by
  ext i hi
  have hlow : ¬ 40 + i < 8 ∧ ¬ 40 + i - 8 < 32 := by omega
  have hpos : 40 + i - 8 - 32 = i := by omega
  simp [hostLen, getLsbD_hostWord, hlow, hpos, hi]

@[simp] theorem hostArg_hostWord (op : Byte) (addr len arg : Word) : hostArg (hostWord op addr len arg) = arg := by
  ext i hi
  have hlow : ¬ 72 + i < 8 ∧ ¬ 72 + i - 8 < 32 ∧ ¬ 72 + i - 8 - 32 < 32 := by omega
  have hpos : 72 + i - 8 - 32 - 32 = i := by omega
  simp [hostArg, getLsbD_hostWord, hlow, hpos, hi]

/-- The variant survives its two bits (rule R97). -/
@[simp] theorem decodeBlockSize_encodeBlockSize (v : BlockSize) : decodeBlockSize (encodeBlockSize v) = v := by
  cases v <;> rfl

theorem encodeSendArg_opcode (op : Byte) (b : Bool) : (encodeSendArg op b).extractLsb' 0 8 = op := by
  have h100 : ∀ i : Fin 8, (0x100 : Word).getLsbD i = false := by decide
  apply BitVec.eq_of_getLsbD_eq
  intro i hi
  have hi32 : i < 32 := by omega
  cases b <;> simp [encodeSendArg, hi, hi32]
  exact fun h => absurd h (by
    rw [← BitVec.getLsbD_eq_getElem]
    exact (h100 ⟨i, hi⟩).trans_ne (by decide))

theorem encodeSendArg_hasAddr (op : Byte) (b : Bool) : (encodeSendArg op b).getLsbD 8 = b := by
  cases b <;> simp [encodeSendArg]

/-- The opcode of SEND_COMMAND survives, and bit 8 says whether an address is attached (rule R91). -/
theorem decodeSendCommand_encodeSendArg (op : Byte) (addr : Word) (b : Bool) :
    decodeSendCommand addr (encodeSendArg op b) = .sendCommand op (if b then some addr else none) := by
  rw [decodeSendCommand, encodeSendArg_opcode, encodeSendArg_hasAddr]

/-- Settles O3: the equation of each operation's code, its fields read back from the word. -/
theorem hostDecodeEncode : Obligations.HostDecodeEncode := by
  intro i w h
  cases i with
  | readStatus => cases h; exact decodeHost_readStatus (by simp)
  | waitNotBusy n => cases h; simpa using decodeHost_waitNotBusy (w := hostWord 0x02 0 0 n) (by simp)
  | sendCommand op a =>
    cases a with
    | none =>
      cases h
      simpa [decodeSendCommand_encodeSendArg] using
        decodeHost_sendCommand (w := hostWord 0x03 0 0 (encodeSendArg op false)) (by simp)
    | some a =>
      cases h
      simpa [decodeSendCommand_encodeSendArg] using
        decodeHost_sendCommand (w := hostWord 0x03 a 0 (encodeSendArg op true)) (by simp)
  | writeEnable => cases h; exact decodeHost_writeEnable (by simp)
  | resetMemory => cases h; exact decodeHost_resetMemory (by simp)
  | read a n => cases h; simpa using decodeHost_read (w := hostWord 0x06 a n 0) (by simp)
  | write a n => cases h; simpa using decodeHost_write (w := hostWord 0x07 a n 0) (by simp)
  | erase a v => cases h; simpa using decodeHost_erase (w := hostWord 0x08 a 0 (encodeBlockSize v)) (by simp)
  | chipErase => cases h; exact decodeHost_chipErase (by simp)
  | initBus => cases h; exact decodeHost_initBus (by simp)
  | deinitBus => cases h; exact decodeHost_deinitBus (by simp)
  | abiInitialize => cases h; exact decodeHost_abiInitialize (by simp)
  | abiProgram a n => cases h; simpa using decodeHost_abiProgram (w := hostWord 0x11 a n 0) (by simp)
  | abiEraseRange x y => cases h; simpa using decodeHost_abiEraseRange (w := hostWord 0x12 x 0 y) (by simp)
  | abiVerify => cases h; exact decodeHost_abiVerify (by simp)
  | rdsr | wren | wrdi | rsten | rst | qread _ _ | qpp _ _ | se4k _ | be32k _ | be64k _ | ce => cases h

/-- Settles O1: the ten words and frames are closed terms, each run through the decoder. -/
theorem decodeWrittenOutWords : Obligations.DecodeWrittenOutWords :=
  ⟨rfl, rfl, rfl, rfl, rfl, rfl, rfl, rfl, rfl, rfl⟩

/-! ### What a well-formed parameter record gives (rule R9) -/

theorem Cfg.wf_opcodes_nodup {c : Cfg} (h : c.wf = true) : c.opcodes.Nodup := by
  simp only [Cfg.wf, Bool.and_eq_true, decide_eq_true_eq] at h
  tauto

theorem Cfg.wf_progAddrLines {c : Cfg} (h : c.wf = true) : c.progAddrLines ≠ .absent := by
  simp only [Cfg.wf, Bool.and_eq_true, bne_iff_ne] at h
  tauto

/-! ### The frame shapes of rule R94 -/

theorem shapeQread_txnQread (c : Cfg) (a : Addr24) {n : Word} (h : n ≠ 0) :
    shapeQread c (frameOf (txnQread c a n) []) = some (a, n) := by
  exact if_pos ⟨rfl, h⟩

theorem shapeQpp_txnQpp {c : Cfg} (a : Addr24) (n : Word) {d : List Byte} (hc : c.progAddrLines ≠ .absent) (hd : d ≠ []) :
    shapeQpp (frameOf (txnQpp c a n) d) = some (a, d) := by
  cases hl : c.progAddrLines <;> simp_all [shapeQpp, frameOf, txnQpp, dataPhaseOf]

/-- A frame of the shape `F_CMD` is a command's frame in every field. -/
theorem frameOf_txnCmd_of_shapeCmd {f : Frame} (h : shapeCmd f = some ()) : frameOf (txnCmd f.opcode) [] = f := by
  obtain ⟨op, addr, al, dc, dl, data⟩ := f
  unfold shapeCmd at h
  split at h <;> simp_all [frameOf, txnCmd, dataPhaseOf]

/-- A frame of the shape `F_CMDA` is an addressed command's frame in every field. -/
theorem frameOf_txnCmda_of_shapeCmda {f : Frame} {a : Addr24} (h : shapeCmda f = some a) :
    frameOf (txnCmda f.opcode a) [] = f := by
  obtain ⟨op, addr, al, dc, dl, data⟩ := f
  unfold shapeCmda at h
  split at h <;> simp_all [frameOf, txnCmda, dataPhaseOf]

theorem frameOf_txnRdsr_of_shapeRdsr {c : Cfg} {f : Frame} (hop : f.opcode = c.opReadStatus)
    (h : shapeRdsr f = some ()) : frameOf (txnRdsr c) [] = f := by
  obtain ⟨op, addr, al, dc, dl, data⟩ := f
  unfold shapeRdsr at h
  split at h <;> simp_all [frameOf, txnRdsr, dataPhaseOf]

theorem frameOf_txnQread_of_shapeQread {c : Cfg} {f : Frame} {a : Addr24} {n : Word} (hop : f.opcode = c.opQuadRead)
    (h : shapeQread c f = some (a, n)) : frameOf (txnQread c a n) [] = f := by
  obtain ⟨op, addr, al, dc, dl, data⟩ := f
  unfold shapeQread at h
  split at h <;> simp_all [frameOf, txnQread, dataPhaseOf]

/-- A frame of the shape `F_QPP` is a program's frame but for the line count of its address (D16). -/
theorem frameOf_txnQpp_of_shapeQpp {c : Cfg} {f : Frame} {a : Addr24} {d : List Byte} (n : Word)
    (hc : c.progAddrLines ≠ .absent) (hop : f.opcode = c.opQuadProgram) (h : shapeQpp f = some (a, d)) :
    frameOf (txnQpp c a n) d = { f with addrLines := c.progAddrLines } := by
  obtain ⟨op, addr, al, dc, dl, data⟩ := f
  unfold shapeQpp at h
  split at h <;> simp_all [frameOf, txnQpp, dataPhaseOf]

/-! ### The device's decoder: one equation per opcode (rule R96) -/

/-- The tests of the decoder before a command's own fail, since the eleven opcodes differ (rule R9). -/
theorem Cfg.wf_opcodes_distinct {c : Cfg} (h : c.wf = true) : c.opcodes.reverse.Nodup :=
  List.nodup_reverse.mpr (Cfg.wf_opcodes_nodup h)

section

variable {c : Cfg} {f : Frame}

theorem decodeFrame_rdsr (h : f.opcode = c.opReadStatus) :
    decodeFrame c f = shaped f.opcode (shapeRdsr f) (fun _ => .rdsr) := by
  simp [decodeFrame, h]

variable (hc : c.wf = true)
include hc

theorem decodeFrame_wren (h : f.opcode = c.opWriteEnable) :
    decodeFrame c f = shaped f.opcode (shapeCmd f) (fun _ => .wren) := by
  have hne := Cfg.wf_opcodes_distinct hc
  simp [Cfg.opcodes] at hne
  simp [decodeFrame, h, hne]

theorem decodeFrame_wrdi (h : f.opcode = c.opWriteDisable) :
    decodeFrame c f = shaped f.opcode (shapeCmd f) (fun _ => .wrdi) := by
  have hne := Cfg.wf_opcodes_distinct hc
  simp [Cfg.opcodes] at hne
  simp [decodeFrame, h, hne]

theorem decodeFrame_rsten (h : f.opcode = c.opResetEnable) :
    decodeFrame c f = shaped f.opcode (shapeCmd f) (fun _ => .rsten) := by
  have hne := Cfg.wf_opcodes_distinct hc
  simp [Cfg.opcodes] at hne
  simp [decodeFrame, h, hne]

theorem decodeFrame_rst (h : f.opcode = c.opResetMemory) :
    decodeFrame c f = shaped f.opcode (shapeCmd f) (fun _ => .rst) := by
  have hne := Cfg.wf_opcodes_distinct hc
  simp [Cfg.opcodes] at hne
  simp [decodeFrame, h, hne]

theorem decodeFrame_qread (h : f.opcode = c.opQuadRead) :
    decodeFrame c f = shaped f.opcode (shapeQread c f) (fun x => .qread x.1 x.2) := by
  have hne := Cfg.wf_opcodes_distinct hc
  simp [Cfg.opcodes] at hne
  simp [decodeFrame, h, hne]

theorem decodeFrame_qpp (h : f.opcode = c.opQuadProgram) :
    decodeFrame c f = shaped f.opcode (shapeQpp f) (fun x => .qpp x.1 x.2) := by
  have hne := Cfg.wf_opcodes_distinct hc
  simp [Cfg.opcodes] at hne
  simp [decodeFrame, h, hne]

theorem decodeFrame_se4k (h : f.opcode = c.opErase4K) :
    decodeFrame c f = shaped f.opcode (shapeCmda f) (.se4k) := by
  have hne := Cfg.wf_opcodes_distinct hc
  simp [Cfg.opcodes] at hne
  simp [decodeFrame, h, hne]

theorem decodeFrame_be32k (h : f.opcode = c.opErase32K) :
    decodeFrame c f = shaped f.opcode (shapeCmda f) (.be32k) := by
  have hne := Cfg.wf_opcodes_distinct hc
  simp [Cfg.opcodes] at hne
  simp [decodeFrame, h, hne]

theorem decodeFrame_be64k (h : f.opcode = c.opErase64K) :
    decodeFrame c f = shaped f.opcode (shapeCmda f) (.be64k) := by
  have hne := Cfg.wf_opcodes_distinct hc
  simp [Cfg.opcodes] at hne
  simp [decodeFrame, h, hne]

theorem decodeFrame_ce (h : f.opcode = c.opBulkErase) :
    decodeFrame c f = shaped f.opcode (shapeCmd f) (fun _ => .ce) := by
  have hne := Cfg.wf_opcodes_distinct hc
  simp [Cfg.opcodes] at hne
  simp [decodeFrame, h, hne]

end

/-- Settles O4: the chain of tests stops at the command's own opcode, whose shape the frame has. -/
theorem frameDecodeEncode : Obligations.FrameDecodeEncode := by
  intro c i f hc hi h
  cases i with
  | rdsr => cases h; exact decodeFrame_rdsr rfl
  | wren => cases h; exact decodeFrame_wren hc rfl
  | wrdi => cases h; exact decodeFrame_wrdi hc rfl
  | rsten => cases h; exact decodeFrame_rsten hc rfl
  | rst => cases h; exact decodeFrame_rst hc rfl
  | qread a n =>
    cases h
    rw [decodeFrame_qread hc rfl, shapeQread_txnQread c a (by simpa [Instr.wf] using hi)]
    rfl
  | qpp a d =>
    cases h
    have hd : d ≠ [] := by
      simp only [Instr.wf, Bool.and_eq_true, bne_iff_ne] at hi
      exact hi.1.1
    rw [decodeFrame_qpp hc rfl, shapeQpp_txnQpp a _ (Cfg.wf_progAddrLines hc) hd]
    rfl
  | se4k a => cases h; exact decodeFrame_se4k hc rfl
  | be32k a => cases h; exact decodeFrame_be32k hc rfl
  | be64k a => cases h; exact decodeFrame_be64k hc rfl
  | ce => cases h; exact decodeFrame_ce hc rfl
  | readStatus | waitNotBusy _ | sendCommand _ _ | writeEnable | resetMemory | read _ _ | write _ _ | erase _ _
  | chipErase | initBus | deinitBus | abiInitialize | abiProgram _ _ | abiEraseRange _ _ | abiVerify => cases h

theorem shaped_eq_ok {α : Type} {op : Byte} {shape : Option α} {build : α → Instr} {i : Instr} :
    shaped op shape build = .ok i ↔ ∃ x, shape = some x ∧ build x = i := by
  cases shape <;> simp [shaped]

/-- A frame accepted by its shape as a command without operands is that command's frame. -/
theorem txnCmd_of_shaped {c : Cfg} {f : Frame} {i j : Instr} {op : Byte} (hop : f.opcode = op)
    (h : shaped f.opcode (shapeCmd f) (fun _ => j) = .ok i) (hj : encodeFrame c j = some (frameOf (txnCmd op) [])) :
    encodeFrame c i = some f := by
  obtain ⟨_, hs, rfl⟩ := shaped_eq_ok.mp h
  rw [hj, ← hop, frameOf_txnCmd_of_shapeCmd hs]

/-- A frame accepted by its shape as a command with a single-line address is that command's frame. -/
theorem txnCmda_of_shaped {c : Cfg} {f : Frame} {i : Instr} {j : Addr24 → Instr} {op : Byte} (hop : f.opcode = op)
    (h : shaped f.opcode (shapeCmda f) j = .ok i) (hj : ∀ a, encodeFrame c (j a) = some (frameOf (txnCmda op a) [])) :
    encodeFrame c i = some f := by
  obtain ⟨a, hs, rfl⟩ := shaped_eq_ok.mp h
  rw [hj, ← hop, frameOf_txnCmda_of_shapeCmda hs]

/-- Off the eleven opcodes every test fails (rule R207). -/
theorem decodeFrame_unknown {c : Cfg} {f : Frame} (h : f.opcode ∉ c.opcodes) :
    decodeFrame c f = .error (.unknownFlashOpcode f.opcode) := by
  simp only [Cfg.opcodes, List.mem_cons, List.not_mem_nil, or_false, not_or] at h
  simp [decodeFrame, h]

theorem opcode_mem_of_decodeFrame {c : Cfg} {f : Frame} {i : Instr} (h : decodeFrame c f = .ok i) :
    f.opcode ∈ c.opcodes := by
  by_contra hn
  rw [decodeFrame_unknown hn] at h
  cases h

/-- Settles O5: whichever of the eleven opcodes the frame has, its shape gives every field of the command's frame. -/
theorem frameDecodeSound : Obligations.FrameDecodeSound := by
  intro c i f hc h
  have hop := opcode_mem_of_decodeFrame h
  simp only [Cfg.opcodes, List.mem_cons, List.not_mem_nil, or_false] at hop
  rcases hop with hop | hop | hop | hop | hop | hop | hop | hop | hop | hop | hop
  · rw [decodeFrame_rdsr hop] at h
    obtain ⟨_, hs, rfl⟩ := shaped_eq_ok.mp h
    exact ⟨f, congrArg some (frameOf_txnRdsr_of_shapeRdsr hop hs), .inl rfl⟩
  · exact ⟨f, txnCmd_of_shaped hop ((decodeFrame_wren hc hop).symm.trans h) rfl, .inl rfl⟩
  · exact ⟨f, txnCmd_of_shaped hop ((decodeFrame_wrdi hc hop).symm.trans h) rfl, .inl rfl⟩
  · exact ⟨f, txnCmd_of_shaped hop ((decodeFrame_rsten hc hop).symm.trans h) rfl, .inl rfl⟩
  · exact ⟨f, txnCmd_of_shaped hop ((decodeFrame_rst hc hop).symm.trans h) rfl, .inl rfl⟩
  · rw [decodeFrame_qread hc hop] at h
    obtain ⟨⟨a, n⟩, hs, rfl⟩ := shaped_eq_ok.mp h
    exact ⟨f, congrArg some (frameOf_txnQread_of_shapeQread hop hs), .inl rfl⟩
  · rw [decodeFrame_qpp hc hop] at h
    obtain ⟨⟨a, d⟩, hs, rfl⟩ := shaped_eq_ok.mp h
    exact ⟨_, rfl, .inr ⟨a, d, rfl, frameOf_txnQpp_of_shapeQpp _ (Cfg.wf_progAddrLines hc) hop hs⟩⟩
  · exact ⟨f, txnCmda_of_shaped hop ((decodeFrame_se4k hc hop).symm.trans h) fun _ => rfl, .inl rfl⟩
  · exact ⟨f, txnCmda_of_shaped hop ((decodeFrame_be32k hc hop).symm.trans h) fun _ => rfl, .inl rfl⟩
  · exact ⟨f, txnCmda_of_shaped hop ((decodeFrame_be64k hc hop).symm.trans h) fun _ => rfl, .inl rfl⟩
  · exact ⟨f, txnCmd_of_shaped hop ((decodeFrame_ce hc hop).symm.trans h) rfl, .inl rfl⟩

end Sys2Proof
end

section
/-! The flash commands as the device executes them (rules R190 to R207): when each is ignored, what it starts, and what
the end of the operation does. -/

namespace Sys2Proof.Machine

/-! ### The status byte (rules R30, R190) -/

theorem getElem_statusBit {n k : Nat} (hk : k < 8) (v : Bool) : (statusBit n v)[k] = (v && decide (k = n)) := by
  cases v
  · simp [statusBit]
  · have hone : (1 : Byte).getLsbD (k - n) = decide (k - n = 0) := by simp [BitVec.getLsbD_one]
    rw [← BitVec.getLsbD_eq_getElem, statusBit, if_pos rfl, BitVec.getLsbD_shiftLeft, hone]
    by_cases hkn : k = n
    · subst hkn
      simp [hk]
    · have : n ≤ k → k - n ≠ 0 := by omega
      simpa [hk, hkn] using this

theorem Cfg.wf_srBits {c : Cfg} (h : c.wf = true) : c.srBusyBit ≠ c.srWelBit ∧ c.srBusyBit < 8 ∧ c.srWelBit < 8 := by
  simp only [Cfg.wf, Bool.and_eq_true, bne_iff_ne, decide_eq_true_eq] at h
  tauto

theorem statusBusy_statusByte {c : Cfg} (h : c.wf = true) (d : Dev) : statusBusy c (statusByte c d) = d.busy := by
  obtain ⟨hne, hb, hw⟩ := Cfg.wf_srBits h
  simp [statusBusy, statusByte, getElem_statusBit, hb, hne]

theorem statusWel_statusByte {c : Cfg} (h : c.wf = true) (d : Dev) : statusWel c (statusByte c d) = d.wel := by
  obtain ⟨hne, hb, hw⟩ := Cfg.wf_srBits h
  simp [statusWel, statusByte, getElem_statusBit, hw, hne.symm]

/-- The bits of the status byte that SEQ does not test are the device's own. -/
theorem statusByte_other (c : Cfg) (d : Dev) {k : Nat} (hk : k < 8) (hb : k ≠ c.srBusyBit) (hw : k ≠ c.srWelBit) :
    (statusByte c d).getLsbD k = d.other.getLsbD k := by
  simp [statusByte, getElem_statusBit, hk, hb, hw]

/-! ### The data phase of a read frame (rules R191, R196) -/

theorem supplyByte_status {s : State} (h : s.dev.answer = .status) : supplyByte s = (statusByte s.cfg s.dev, s) := by
  simp [supplyByte, h]

theorem supplyByte_array {s : State} {a : Nat} (h : s.dev.answer = .array a) :
    supplyByte s = (memRead s.dev.mem a, s.withDev { s.dev with answer := .array (wrapAddress s.cfg (a + 1)) }) := by
  simp [supplyByte, h]

@[simp] theorem supplyByte_mem (s : State) : (supplyByte s).2.dev.mem = s.dev.mem := by
  unfold supplyByte
  split <;> rfl

@[simp] theorem supplyByte_cfg (s : State) : (supplyByte s).2.cfg = s.cfg := by
  unfold supplyByte
  split <;> rfl

/-- Sending bytes changes no byte of the array. -/
@[simp] theorem supplyMany_mem (n : Nat) (s : State) : (supplyMany n s).2.dev.mem = s.dev.mem := by
  induction n generalizing s with
  | zero => rfl
  | succ n ih => simp [supplyMany, ih]

theorem wrapAddress_of_lt {c : Cfg} {a : Nat} (h : a < c.capacity) : wrapAddress c a = a := Nat.mod_eq_of_lt h

/-- A read within the array sends its bytes in order. -/
theorem supplyMany_array {n a : Nat} {s : State} (h : s.dev.answer = .array (wrapAddress s.cfg a))
    (hn : a + n ≤ s.cfg.capacity) : (supplyMany n s).1 = (List.range n).map fun i => memRead s.dev.mem (a + i) := by
  induction n generalizing a s with
  | zero => rfl
  | succ n ih =>
    rw [wrapAddress_of_lt (by omega)] at h
    have hrest := ih (a := a + 1) (s := (supplyByte s).2) (by simp [supplyByte_array h]) (by simp; omega)
    have hbyte : (supplyByte s).1 = memRead s.dev.mem a := by rw [supplyByte_array h]
    rw [supplyMany, hrest, hbyte, supplyByte_mem, List.range_succ_eq_map, List.map_cons, List.map_map]
    simp only [Function.comp_def, Nat.add_zero, Nat.succ_eq_add_one, Nat.add_assoc, Nat.add_comm 1]

/-! ### What each command does -/

theorem exec_qread {n : Word} (hn : n ≠ 0) (a : Addr24) (s : State) : exec (.qread a n) s =
    .next (openAnswer (if s.dev.busy then .ignored else .array (wrapAddress s.cfg a.toNat)) s) := if_neg hn

/-- A device that is busy or has no latch only disarms on an erase (rules R202, R204). -/
theorem eraseFrame_ignored {s : State} (h : s.dev.busy = true ∨ s.dev.wel = false) (lo hi : Nat) :
    eraseFrame lo hi s = .next (disarm s) := if_pos (by simpa using h)

/-- An idle device with the latch starts an erase that lies in the array (rule R202). -/
theorem eraseFrame_starts {s : State} (hb : s.dev.busy = false) (hw : s.dev.wel = true) {lo hi : Nat}
    (h : hi ≤ s.cfg.capacity) : eraseFrame lo hi s = .next (startOp (.erase lo hi) s) := by
  simp [eraseFrame, hb, hw, h]

/-- One that leaves the array faults (U3). -/
theorem eraseFrame_outside {s : State} (hb : s.dev.busy = false) (hw : s.dev.wel = true) {lo hi : Nat}
    (h : s.cfg.capacity < hi) : eraseFrame lo hi s = .fault .noFlashByte := by
  simp [eraseFrame, hb, hw, h]

/-- A device that is busy or has no latch only disarms on a program (rules R197, R204). -/
theorem execQpp_ignored {s : State} (h : s.dev.busy = true ∨ s.dev.wel = false) (a : Addr24) {d : List Byte}
    (hd : d ≠ []) : execQpp a d s = .next (disarm s) := by
  rw [execQpp, if_neg hd, if_pos (by simpa using h)]

/-- An idle device with the latch starts a program whose bytes lie in the array (rule R197). -/
theorem execQpp_starts {s : State} (hb : s.dev.busy = false) (hw : s.dev.wel = true) {a : Addr24} {d : List Byte}
    (hd : d ≠ []) (h : ∀ k ∈ programTargets s.cfg a.toNat d.length, k < s.cfg.capacity) :
    execQpp a d s = .next (startOp (.program a.toNat d) s) := by
  rw [execQpp, if_neg hd, if_neg (by simp [hb, hw]), if_pos (by simpa using h)]

/-- One that names a byte outside the array faults (U3). -/
theorem execQpp_outside {s : State} (hb : s.dev.busy = false) (hw : s.dev.wel = true) {a : Addr24} {d : List Byte}
    (hd : d ≠ []) {k : Nat} (hk : k ∈ programTargets s.cfg a.toNat d.length) (h : s.cfg.capacity ≤ k) :
    execQpp a d s = .fault .noFlashByte := by
  rw [execQpp, if_neg hd, if_neg (by simp [hb, hw]), if_neg]
  intro hall
  have := List.all_eq_true.mp hall k hk
  simp at this
  omega

/-! ### The end of an operation (rule R203) -/

theorem deviceEnd_idle {s : State} (h : s.dev.busy = false) : deviceEnd s = s := by
  simp [deviceEnd, h]

@[simp] theorem applyOp_cfg (s : State) : (applyOp s).cfg = s.cfg := by
  unfold applyOp
  split <;> rfl

/-- The effect of an operation is on the array alone. -/
theorem applyOp_dev (s : State) : (applyOp s).dev = { s.dev with mem := (applyOp s).dev.mem } := by
  unfold applyOp
  split <;> rfl

theorem deviceEnd_mem {s : State} (h : s.dev.busy = true) : (deviceEnd s).dev.mem = (applyOp s).dev.mem := by
  simp [deviceEnd, h]

/-- The end of an operation: its effect, and the busy bit, the latch and the operation cleared. -/
theorem deviceEnd_dev {s : State} (h : s.dev.busy = true) : (deviceEnd s).dev =
    { s.dev with mem := (deviceEnd s).dev.mem, busy := false, wel := false, op := .none } := by
  simp only [deviceEnd, h, if_true, withDev_dev]
  rw [applyOp_dev]

theorem applyOp_erase {s : State} {lo hi : Nat} (h : s.dev.op = .erase lo hi) :
    (applyOp s).dev.mem = memErase s.dev.mem lo hi := by
  simp [applyOp, h]

theorem applyOp_program {s : State} {a : Nat} {d : List Byte} (h : s.dev.op = .program a d) :
    (applyOp s).dev.mem = memProgram s.dev.mem ((programTargets s.cfg a d.length).zip d) s.env.frees := by
  simp [applyOp, h]

/-! ### The addresses a program names (rule R197) -/

@[simp] theorem programTargets_length (c : Cfg) (a n : Nat) : (programTargets c a n).length = n := by
  simp [programTargets]

@[simp] theorem programTargets_getElem (c : Cfg) (a n i : Nat) (h : i < (programTargets c a n).length) :
    (programTargets c a n)[i] = a - a % c.pageSize + (a % c.pageSize + i) % c.pageSize := by
  simp [programTargets]

theorem mem_programTargets {c : Cfg} {a n x : Nat} :
    x ∈ programTargets c a n ↔ ∃ i, i < n ∧ a - a % c.pageSize + (a % c.pageSize + i) % c.pageSize = x := by
  simp [programTargets]

/-- A program of at most a page names each address once. -/
theorem programTargets_nodup {c : Cfg} {a n : Nat} (h : n ≤ c.pageSize) : (programTargets c a n).Nodup := by
  refine List.Nodup.map_on ?_ List.nodup_range
  intro i hi j hj heq
  have hi' : i < c.pageSize := by have := List.mem_range.mp hi; omega
  have hj' : j < c.pageSize := by have := List.mem_range.mp hj; omega
  have hmod : i % c.pageSize = j % c.pageSize := Nat.ModEq.add_left_cancel' _ (Nat.add_left_cancel heq)
  rwa [Nat.mod_eq_of_lt hi', Nat.mod_eq_of_lt hj'] at hmod

/-- A program that stays in its page names the addresses from its own on. -/
theorem programTarget_in_page {p a i n : Nat} (h : a % p + n ≤ p) (hi : i < n) : a - a % p + (a % p + i) % p = a + i := by
  have hlt : a % p + i < p := by omega
  have := Nat.mod_le a p
  rw [Nat.mod_eq_of_lt hlt]
  omega

/-- A program gives the erased bytes it names their data. -/
theorem memRead_memProgram_named {x : Nat} {b : Byte} : ∀ {m : Mem} (ws : List (Nat × Byte)) (k : Nat),
    Mem.wf m = true → (ws.map Prod.fst).Nodup → (x, b) ∈ ws → memRead m x = 0xFF →
    memRead (memProgram m ws k) x = b
  | m, (a, c) :: ws, k, hm, hnd, hmem, hx => by
    rw [List.map_cons, List.nodup_cons] at hnd
    have hm' := memWrite_wf a (if memRead m a = 0xFF then c else Config.freeByte k) hm
    rw [memProgram]
    rcases List.mem_cons.mp hmem with heq | hmem
    · cases heq
      rw [memRead_memProgram_other ws (k + 1) hm' (fun w hw e => hnd.1 (List.mem_map.mpr ⟨w, hw, e⟩)),
        memRead_memWrite _ _ _ hm, if_pos rfl, if_pos hx]
    · have hxa : x ≠ a := fun e => hnd.1 (List.mem_map.mpr ⟨(x, b), hmem, e⟩)
      exact memRead_memProgram_named ws (k + 1) hm' hnd.2 hmem (by rw [memRead_memWrite _ _ _ hm, if_neg hxa, hx])

/-- The end of a program leaves every byte it does not name. -/
theorem memRead_deviceEnd_program_other {s : State} {a : Nat} {d : List Byte} (hb : s.dev.busy = true)
    (hop : s.dev.op = .program a d) (hm : Mem.wf s.dev.mem = true) {x : Nat}
    (hx : x ∉ programTargets s.cfg a d.length) : memRead (deviceEnd s).dev.mem x = memRead s.dev.mem x := by
  rw [deviceEnd_mem hb, applyOp_program hop]
  refine memRead_memProgram_other _ _ hm fun w hw e => hx ?_
  rw [← e]
  exact (List.of_mem_zip hw).1

/-- The end of a program of at most a page gives the erased bytes it names their data. -/
theorem memRead_deviceEnd_program_named {s : State} {a : Nat} {d : List Byte} (hb : s.dev.busy = true)
    (hop : s.dev.op = .program a d) (hm : Mem.wf s.dev.mem = true) (hd : d.length ≤ s.cfg.pageSize) {i : Nat}
    (hi : i < d.length) {x : Nat} (hx : a - a % s.cfg.pageSize + (a % s.cfg.pageSize + i) % s.cfg.pageSize = x)
    (he : memRead s.dev.mem x = 0xFF) : memRead (deviceEnd s).dev.mem x = d[i] := by
  rw [deviceEnd_mem hb, applyOp_program hop]
  refine memRead_memProgram_named _ _ hm ?_ ?_ he
  · rw [List.map_fst_zip (by simp)]
    exact programTargets_nodup hd
  · refine List.mem_iff_getElem.mpr ⟨i, by simpa using hi, ?_⟩
    simp [← hx]

/-- The end of an erase fills its range and leaves every other byte. -/
theorem memRead_deviceEnd_erase {s : State} {lo hi : Nat} (hb : s.dev.busy = true) (hop : s.dev.op = .erase lo hi)
    (x : Nat) : memRead (deviceEnd s).dev.mem x = if lo ≤ x ∧ x < hi then 0xFF else memRead s.dev.mem x := by
  rw [deviceEnd_mem hb, applyOp_erase hop, memRead_memErase]
  rfl

/-! ### The obligations about flash commands -/

/-- Settles O47: only the device's answer and armed bit change; the byte sent is the status byte of the moment. -/
theorem rdsrSendsTheStatus : Obligations.RdsrSendsTheStatus := by
  intro s hc
  refine ⟨_, rfl, ⟨rfl, rfl, rfl, rfl, rfl⟩, rfl, fun d hd => ?_⟩
  have hbyte := supplyByte_status (s := (openAnswer .status s).withDev d) hd
  refine ⟨statusByte s.cfg d, by simp [supplyMany, hbyte], by simp [supplyMany, hbyte], statusBusy_statusByte hc d,
    statusWel_statusByte hc d, fun k hk hb hw => statusByte_other s.cfg d hk hb hw⟩

/-- Settles O48: the two latch commands, at an idle device and at a busy one. -/
theorem latchCommands : Obligations.LatchCommands :=
  fun s => ⟨fun h => by constructor <;> simp [exec, execWren, execWrdi, h, disarm] <;> rfl,
    fun h => by constructor <;> simp [exec, execWren, execWrdi, h, disarm]⟩

/-- Settles O49: what is released is what the abandoned operation covers. -/
theorem resetPair : Obligations.ResetPair := by
  refine fun s => ⟨rfl, fun h => if_neg (by simp [h]), fun h hm => ?_⟩
  refine ⟨_, if_pos h, rfl, fun a ha => ?_, rfl, rfl, rfl, rfl, rfl⟩
  exact memRead_memRelease_other _ _ hm ha

/-- Settles O50: each of the five only disarms. -/
theorem ignoredFrames : Obligations.IgnoredFrames := by
  intro s i hi h
  refine ⟨disarm s, ?_, ⟨rfl, rfl, rfl, rfl, rfl⟩, rfl⟩
  rcases hi with ⟨a, d, hd, rfl⟩ | ⟨a, rfl | rfl | rfl⟩ | rfl
  · exact execQpp_ignored h a hd
  · exact eraseFrame_ignored h _ _
  · exact eraseFrame_ignored h _ _
  · exact eraseFrame_ignored h _ _
  · exact eraseFrame_ignored h _ _

/-- Settles O51: an idle device opens the array's data phase, which sends the bytes in order. -/
theorem qreadSendsTheArray : Obligations.QreadSendsTheArray := by
  refine fun s a n hn => ⟨fun hb => ?_, fun hb => ?_⟩
  · have hexec := exec_qread hn a s
    rw [hb] at hexec
    refine ⟨_, hexec, ⟨rfl, rfl, rfl, rfl, rfl⟩, rfl, supplyMany_mem _ _, fun hin => ?_⟩
    have hpos : n.toNat ≠ 0 := fun h0 => hn (BitVec.eq_of_toNat_eq h0)
    exact ⟨congrArg _ (wrapAddress_of_lt (by omega)), supplyMany_array rfl hin⟩
  · have hexec := exec_qread hn a s
    rw [hb] at hexec
    exact ⟨_, hexec, ⟨rfl, rfl, rfl, rfl, rfl⟩, rfl⟩

/-- Settles O52: the program starts, and its end writes the erased bytes among its targets. -/
theorem qppPrograms : Obligations.QppPrograms := by
  intro s a d p target hc hm hd hlen hb hw hin
  have hstart : exec (.qpp a d) s = .next (startOp (.program a.toNat d) s) := by
    refine execQpp_starts hb hw hd fun k hk => ?_
    obtain ⟨i, hi, rfl⟩ := mem_programTargets.mp hk
    exact hin i hi
  have hbusy : (startOp (.program a.toNat d) s).dev.busy = true := rfl
  have hop : (startOp (.program a.toNat d) s).dev.op = .program a.toNat d := rfl
  refine ⟨_, hstart, ⟨rfl, rfl, rfl, rfl, rfl⟩, rfl, deviceEnd_dev hbusy, ?_, ?_, ?_⟩
  · exact fun i hi he => memRead_deviceEnd_program_named hbusy hop hm hlen hi rfl he
  · intro x hx
    refine memRead_deviceEnd_program_other hbusy hop hm fun hmem => ?_
    obtain ⟨i, hi, rfl⟩ := mem_programTargets.mp hmem
    exact hx i hi rfl
  · exact fun h i hi => programTarget_in_page h hi

/-- An accepted erase of `lo` to `hi - 1` starts, and its end fills exactly that range. -/
theorem eraseFrame_fills {s : State} (hb : s.dev.busy = false) (hw : s.dev.wel = true) {lo hi : Nat}
    (h : hi ≤ s.cfg.capacity) :
    ∃ t, eraseFrame lo hi s = .next t ∧ onlyDevice s t
      ∧ t.dev = { s.dev with busy := true, op := .erase lo hi, armed := false }
      ∧ (deviceEnd t).dev = { t.dev with mem := (deviceEnd t).dev.mem, busy := false, wel := false, op := .none }
      ∧ ∀ x, memRead (deviceEnd t).dev.mem x = if lo ≤ x ∧ x < hi then 0xFF else memRead s.dev.mem x :=
  ⟨_, eraseFrame_starts hb hw h, ⟨rfl, rfl, rfl, rfl, rfl⟩, rfl, deviceEnd_dev rfl, memRead_deviceEnd_erase rfl rfl⟩

/-- Settles O53: each of the four is an erase of its block. -/
theorem erasesFillTheirBlock : Obligations.ErasesFillTheirBlock := by
  intro s a i v hi lo hi' hm hb hw hin
  rcases hi with ⟨rfl, rfl⟩ | ⟨rfl, rfl⟩ | ⟨rfl, rfl⟩ | ⟨rfl, rfl⟩
  · exact eraseFrame_fills hb hw hin
  · exact eraseFrame_fills hb hw hin
  · exact eraseFrame_fills hb hw hin
  · have hcap : hi' = s.cfg.capacity := Nat.zero_add _
    rw [hcap]
    exact eraseFrame_fills hb hw (hcap ▸ hin)

end Sys2Proof.Machine
end

section
/-! The command port of a ready SEQ (rules R25, R26, R79, R260), the values at reset (rule R37), and where the model
stops. -/

namespace Sys2Proof.Machine

/-! ### Reset -/

/-- Settles O7: the fields of the reset state are literals, and the implementation carries its well-formedness. -/
theorem resetState : Obligations.ResetState :=
  ⟨rfl, rfl, rfl, rfl, rfl, rfl, rfl, Config.implementation.params_wf⟩

/-- Settles O8: at reset nothing is listed, queued or in progress. -/
theorem invAtReset : Obligations.InvAtReset :=
  ⟨reset_memories_wf.1, reset_memories_wf.2, fun _ h => absurd h List.not_mem_nil, fun _ h => absurd h List.not_mem_nil,
    fun _ => rfl, Nat.zero_le _, by decide, rfl, rfl⟩

/-! ### The port -/

/-- A legal command runs its operation with the command registers latched (rule R25). -/
theorem runCommand_ok {w : HostWord} {i : Instr} (h : decodeHost w = .ok i) (s : State) :
    runCommand w s = exec i (acceptCommand w s) := by
  simp [runCommand, h]

theorem takeAct_of_script {s : State} {a : HostAct} {rest : List HostAct} (h : s.host.script = a :: rest) :
    takeAct s = s.withHost { s.host with script := rest } := by
  rw [takeAct, h]
  rfl

/-- Settles O11: the port takes the command and runs it. -/
theorem stepRunsPresentedCommand : Obligations.StepRunsPresentedCommand := by
  intro s w i rest hrdy hdec hscript
  rw [step_command hrdy hscript, runCommand_ok hdec, takeAct_of_script hscript]
  rfl

theorem step_store {s : State} {off : Word} {b : Byte} {rest : List HostAct} (hrdy : s.seq.rdy = true)
    (h : s.host.script = .store off b :: rest) : step s = .next (hbufWrite off b (takeAct s)) := by
  simp [step, portTurn, hrdy, h]

theorem step_idle {s : State} (hrdy : s.seq.rdy = true) (h : s.host.script = []) : step s = idleTurn s := by
  simp [step, portTurn, hrdy, h]

/-- While SEQ waits under ENV-ANY only the step count moves (rule R260). -/
theorem idleTurn_any {s : State} (h : Undisturbed s) : idleTurn s = .next (advance (setPhase 0 s)) := by
  have hstep : seqStep 0 s (fun _ s => Res.ok () s) = .ok () (advance (setPhase 0 s)) := seqStep_any 0 h _ rfl h.1
  simp [idleTurn, hstep]

/-- A reset of SEQ that falls while it waits (rule R260). -/
theorem idleTurn_reset {s : State} (h : s.host.resetAt = some s.env.now) : idleTurn s = .next (resetSeq s) := by
  simp [idleTurn, seqStep, h]

/-- Settles O12: the store is one write to the buffer; the idle turn is one empty SEQ step. -/
theorem hostStoresAndIdleTurns : Obligations.HostStoresAndIdleTurns := by
  refine ⟨fun s off b rest hrdy hm h => ?_, fun s hrdy hpc h hu => ?_⟩
  · exact ⟨_, step_store hrdy h, by simp [h], rfl, rfl, rfl, rfl, rfl, rfl, fun k => memRead_memWrite _ _ k hm⟩
  · exact ⟨_, (step_idle hrdy h).trans (idleTurn_any hu), by simp [hpc], rfl, rfl, rfl, rfl, rfl⟩

/-! ### The gate of rule R26 -/

theorem gated_open {s : State} (h : s.seq.inited = true) (run : State → Host.Outcome State Fault Refusal) :
    gated s run = run s := if_pos h

theorem gated_closed {s : State} (h : s.seq.inited = false) (run : State → Host.Outcome State Fault Refusal) :
    gated s run = .next (refuseCommand 0xFE .notInitialised s) := if_neg (by simp [h])

/-! #### Each gated operation is its body behind the gate -/

theorem exec_readStatus (s : State) :
    exec .readStatus s = gated s fun s => finishByte (readStatus (enterProc .readStatus s)) := rfl

theorem exec_waitNotBusy (n : Word) (s : State) :
    exec (.waitNotBusy n) s = gated s fun s => finishByte (waitNotBusy n (enterProc .waitNotBusy s)) := rfl

theorem exec_sendCommand (op : Byte) (a : Option Word) (s : State) :
    exec (.sendCommand op a) s = gated s fun s => finishUnit (sendCommand op (a.map trunc24) (enterProc .sendCommand s)) := rfl

theorem exec_writeEnable (s : State) :
    exec .writeEnable s = gated s fun s => finishUnit (writeEnable (enterProc .writeEnable s)) := rfl

theorem exec_resetMemory (s : State) :
    exec .resetMemory s = gated s fun s => finishUnit (resetMemory (enterProc .resetMemory s)) := rfl

theorem exec_read (a n : Word) (s : State) :
    exec (.read a n) s = gated s fun s => finishUnit (read a n (enterProc .read s)) := rfl

theorem exec_write (a n : Word) (s : State) :
    exec (.write a n) s = gated s fun s => finishUnit (write a n (enterProc .write s)) := rfl

theorem exec_erase (a : Word) (v : BlockSize) (s : State) :
    exec (.erase a v) s = gated s fun s => finishUnit (erase a v (enterProc .erase s)) := rfl

theorem exec_chipErase (s : State) :
    exec .chipErase s = gated s fun s => finishUnit (chipErase (enterProc .chipErase s)) := rfl

theorem exec_abiProgram (a n : Word) (s : State) :
    exec (.abiProgram a n) s = gated s fun s => finishAbi (abiProgram a n (enterProc .abiProgram s)) := rfl

theorem exec_abiEraseRange (x y : Word) (s : State) :
    exec (.abiEraseRange x y) s = gated s fun s => finishAbi (abiEraseRange x y (enterProc .abiEraseRange s)) := rfl

theorem exec_gated {i : Instr} (h : isGated i = true) (s : State) : ∃ run, exec i s = gated s run := by
  cases i with
  | readStatus => exact ⟨_, exec_readStatus s⟩
  | waitNotBusy n => exact ⟨_, exec_waitNotBusy n s⟩
  | sendCommand op a => exact ⟨_, exec_sendCommand op a s⟩
  | writeEnable => exact ⟨_, exec_writeEnable s⟩
  | resetMemory => exact ⟨_, exec_resetMemory s⟩
  | read a n => exact ⟨_, exec_read a n s⟩
  | write a n => exact ⟨_, exec_write a n s⟩
  | erase a v => exact ⟨_, exec_erase a v s⟩
  | chipErase => exact ⟨_, exec_chipErase s⟩
  | abiProgram a n => exact ⟨_, exec_abiProgram a n s⟩
  | abiEraseRange x y => exact ⟨_, exec_abiEraseRange x y s⟩
  | initBus | deinitBus | abiInitialize | abiVerify | rdsr | wren | wrdi | rsten | rst | qread _ _ | qpp _ _ | se4k _
  | be32k _ | be64k _ | ce => cases h

/-! #### The operations that are accepted whatever `INITED` is -/

theorem exec_initBus (s : State) : exec .initBus s = finishUnit (initBus (enterProc .initBus s)) := rfl

theorem exec_deinitBus (s : State) : exec .deinitBus s = finishUnit (deinitBus (enterProc .deinitBus s)) := rfl

theorem exec_abiInitialize (s : State) :
    exec .abiInitialize s = finishAbi (abiInitialize (enterProc .abiInitialize s)) := rfl

/-- Settles O13: the closed gate refuses, which changes only `SEQ`. -/
theorem notInitialisedRefusal : Obligations.NotInitialisedRefusal := by
  intro i s hg hi
  obtain ⟨run, hrun⟩ := exec_gated hg s
  exact ⟨_, hrun.trans (gated_closed hi run), rfl, rfl, rfl, rfl, rfl, rfl⟩

/-! ### Operations that need no step -/

theorem read_zero (addr : Word) (s : State) : read addr 0 s = .ok () s := if_pos rfl

theorem write_zero (addr : Word) (s : State) : write addr 0 s = .ok () s := if_pos rfl

/-- A call of a procedure that does nothing moves only the caller's line. -/
theorem call_ok_self {ph : Nat} {p : Proc} {s : State} {body : State → Res Unit}
    (h : ∀ t, body t = .ok () t) : call ph p s body = .ok () (setPhase ph s) := by
  rw [call, h]
  rfl

/-- Settles O28: the body of each is `Ok` at once, and the completing step clears the FSM state. -/
theorem zeroLengthDoesNothing : Obligations.ZeroLengthDoesNothing := by
  intro s addr hi
  refine ⟨?_, ?_⟩
  · rintro i (rfl | rfl)
    · have hrun : exec (.read addr 0) s = .next (complete 0 .none 0 (enterProc .read s)) := by
        rw [exec_read, gated_open hi, read_zero]
        rfl
      exact ⟨_, hrun, complete_enterProc_seq .read 0 s, rfl, rfl, rfl, rfl, rfl⟩
    · have hrun : exec (.write addr 0) s = .next (complete 0 .none 0 (enterProc .write s)) := by
        rw [exec_write, gated_open hi, write_zero]
        rfl
      exact ⟨_, hrun, complete_enterProc_seq .write 0 s, rfl, rfl, rfl, rfl, rfl⟩
  · have hrun : exec (.abiProgram addr 0) s = .next (complete 0 .none 1 (setPhase 1 (enterProc .abiProgram s))) := by
      rw [exec_abiProgram, gated_open hi, abiProgram, call_ok_self (write_zero _)]
      rfl
    exact ⟨_, hrun, rfl, rfl, rfl, rfl, rfl, rfl⟩

/-! ### Where the model stops -/

theorem deliver_unknown {f : Frame} {s : State} (h : f.opcode ∉ s.cfg.opcodes) :
    deliver f s = .refused .unknownFlashOpcode := by
  simp [deliver, decodeFrame_unknown h]

theorem execQread_empty (a : Addr24) (s : State) : execQread a 0 s = .refused .wrongFrameShape := if_pos rfl

theorem execQpp_empty (a : Addr24) (s : State) : execQpp a [] s = .refused .wrongFrameShape := if_pos rfl

/-- The block that contains an address outside the array ends outside it. -/
theorem capacity_lt_blockEnd {c : Cfg} {a : Addr24} {size : Nat} (hs : 0 < size) (h : c.capacity ≤ a.toNat) :
    c.capacity < blockStart size a + size := by
  have := Nat.mod_lt a.toNat hs
  have := Nat.mod_le a.toNat size
  unfold blockStart
  omega

/-- A program names its own address. -/
theorem self_mem_programTargets (c : Cfg) (a : Nat) {n : Nat} (h : 0 < n) : a ∈ programTargets c a n :=
  mem_programTargets.mpr ⟨0, h, by rw [Nat.add_zero, Nat.mod_mod, Nat.sub_add_cancel (Nat.mod_le _ _)]⟩

/-- Under ENV-REF the flags of a disabled controller cannot be read (U4). -/
theorem briFlags_disabled {s : State} {ph : Nat} (hm : s.env.model = .ref) (he : s.bri.en = false)
    (hr : s.host.resetAt = none) : briFlags ph s = .refused .controllerDisabled := by
  simp [briFlags, seqStep, onController, hm, he, hr]

theorem callWait_disabled {s : State} {ph : Nat} {mask : FlagSet} {e : Bool} (hm : s.env.model = .ref)
    (he : s.bri.en = false) (hr : s.host.resetAt = none) (hb : s.cfg.busWaitTicks ≠ 0) :
    callWait ph mask e s = .refused .controllerDisabled := by
  obtain ⟨n, hn⟩ := Nat.exists_eq_succ_of_ne_zero (fun z => hb (BitVec.eq_of_toNat_eq z) : s.cfg.busWaitTicks.toNat ≠ 0)
  unfold callWait call waitFlag
  simp only [hn, waitFlagLoop]
  rw [briFlags_disabled (by simpa using hm) (by simpa using he) (by simpa using hr)]
  rfl

theorem exec_readStatus_disabled {s : State} (hm : s.env.model = .ref) (he : s.bri.en = false)
    (hr : s.host.resetAt = none) (hi : s.seq.inited = true) (hb : s.cfg.busWaitTicks ≠ 0) :
    exec .readStatus s = .refused .controllerDisabled := by
  rw [exec_readStatus, gated_open hi, readStatus, callIssue, call, issue,
    callWait_disabled (by simpa using hm) (by simpa using he) (by simpa using hr) (by simpa using hb)]
  rfl

/-- Settles O54: the port not ready; frames of no bytes; an unknown opcode; programs and erases outside the array; a
disabled controller. -/
theorem whereTheModelStops : Obligations.WhereTheModelStops := by
  refine ⟨fun s h => if_neg (by simp [h]), fun s a => ⟨execQread_empty a s, execQpp_empty a s⟩, fun f s h => deliver_unknown h, ?_,
    fun s hm he hr hi hb => exec_readStatus_disabled hm he hr hi hb⟩
  intro s a d hb hw ha
  refine ⟨fun h => ?_, fun h => ?_, fun h => ?_, fun hd => ?_⟩
  · exact eraseFrame_outside hb hw (capacity_lt_blockEnd h ha)
  · exact eraseFrame_outside hb hw (capacity_lt_blockEnd h ha)
  · exact eraseFrame_outside hb hw (capacity_lt_blockEnd h ha)
  · exact execQpp_outside hb hw hd (self_mem_programTargets _ _ (List.length_pos_iff.mpr hd)) ha

end Sys2Proof.Machine
end

section
/-! What the agents of ENV-REF can do between two SEQ steps (rules R13, R203, R221), and what SEQ steps, one after
another, leave on record. -/

namespace Sys2Proof.Machine

/-! ### The device's invariant -/

/-- The device's part of the invariant: the array in canonical form and within the capacity, and so the operation in
progress; an idle device has none. -/
structure DeviceInv (c : Cfg) (d : Dev) : Prop where
  wf : Mem.wf d.mem = true
  array : ∀ x ∈ d.mem, x.1 < c.capacity
  op : ∀ a ∈ opTargets c d.op, a < c.capacity
  idle : d.busy = false → d.op = .none

theorem DeviceInv.disarmed {c : Cfg} {d : Dev} (h : DeviceInv c d) : DeviceInv c { d with armed := false } :=
  ⟨h.wf, h.array, h.op, h.idle⟩

theorem DeviceInv.started {c : Cfg} {d : Dev} (h : DeviceInv c d) {op : DevOp} (hop : ∀ a ∈ opTargets c op, a < c.capacity) :
    DeviceInv c { d with busy := true, op := op, armed := false } :=
  ⟨h.wf, h.array, hop, fun hb => by cases hb⟩

/-- The end of an operation keeps the invariant: what it writes lies in the array. -/
theorem deviceEnd_inv {s : State} (h : DeviceInv s.cfg s.dev) : DeviceInv s.cfg (deviceEnd s).dev := by
  by_cases hb : s.dev.busy = true
  swap
  · rwa [deviceEnd_idle (by simpa using hb)]
  have hmem : Mem.wf (applyOp s).dev.mem = true ∧ ∀ x ∈ (applyOp s).dev.mem, x.1 < s.cfg.capacity := by
    cases hop : s.dev.op with
    | none => rw [show applyOp s = s by simp [applyOp, hop]]; exact ⟨h.wf, h.array⟩
    | reset => rw [show applyOp s = s by simp [applyOp, hop]]; exact ⟨h.wf, h.array⟩
    | erase lo hi =>
      rw [applyOp_erase hop]
      exact ⟨memErase_wf lo hi h.wf, fun x hx => h.array x (mem_memErase hx)⟩
    | program a d =>
      rw [applyOp_program hop]
      refine ⟨memProgram_wf _ _ h.wf, fun x hx => ?_⟩
      rcases mem_memProgram _ _ hx with hx | ⟨w, hw, e⟩
      · exact h.array x hx
      · rw [e]
        exact h.op w.1 (by rw [hop]; exact (List.of_mem_zip hw).1)
  rw [deviceEnd_dev hb, deviceEnd_mem hb]
  exact ⟨hmem.1, hmem.2, fun _ ha => absurd ha List.not_mem_nil, fun _ => rfl⟩

/-! ### A frame met by the device -/

/-- From `s` to `t` only the device and the count of free values changed, and the device's invariant was kept. -/
structure DeviceMove (s t : State) : Prop where
  cfg : t.cfg = s.cfg
  seq : t.seq = s.seq
  bri : t.bri = s.bri
  host : t.host = s.host
  env : t.env = { s.env with frees := t.env.frees }
  inv : DeviceInv s.cfg s.dev → DeviceInv s.cfg t.dev

theorem DeviceMove.refl (s : State) : DeviceMove s s := ⟨rfl, rfl, rfl, rfl, rfl, id⟩

theorem DeviceMove.withDev {s : State} {d : Dev} (h : DeviceInv s.cfg s.dev → DeviceInv s.cfg d) :
    DeviceMove s (s.withDev d) := ⟨rfl, rfl, rfl, rfl, rfl, h⟩

/-- What a frame's meaning can come to: a move of the device, a fault, or a refusal of its shape. -/
def FrameEnds (s : State) (o : Host.Outcome State Fault Refusal) : Prop :=
  match o with
  | .next t => DeviceMove s t
  | .fault _ => True
  | .refused r => r = .wrongFrameShape

theorem eraseFrame_ends (lo hi : Nat) (s : State) : FrameEnds s (eraseFrame lo hi s) := by
  unfold eraseFrame
  split
  · exact .withDev DeviceInv.disarmed
  · split
    · refine .withDev fun h => h.started fun a ha => ?_
      have := List.mem_range'_1.mp ha
      omega
    · trivial

theorem execQpp_ends (a : Addr24) (d : List Byte) (s : State) : FrameEnds s (execQpp a d s) := by
  unfold execQpp
  split
  · rfl
  · split
    · exact .withDev DeviceInv.disarmed
    · split
      · next hin => exact .withDev fun h => h.started fun k hk => of_decide_eq_true (List.all_eq_true.mp hin k hk)
      · trivial

theorem execRst_ends (s : State) : FrameEnds s (execRst s) := by
  unfold execRst
  split
  · refine ⟨rfl, rfl, rfl, rfl, rfl, fun h => ⟨memRelease_wf _ _ h.wf, fun x hx => ?_, ?_, fun hb => by cases hb⟩⟩
    · rcases mem_memRelease _ _ hx with hx | hx
      · exact h.array x hx
      · exact h.op x.1 hx
    · exact fun _ ha => absurd ha List.not_mem_nil
  · exact .refl s

theorem execQread_ends (a : Addr24) (n : Word) (s : State) : FrameEnds s (execQread a n s) := by
  unfold execQread
  split
  · rfl
  · exact .withDev fun h => ⟨h.wf, h.array, h.op, h.idle⟩

/-- A latch command changes the latch and the armed bit only. -/
theorem latch_ends (s : State) (v : Bool) :
    FrameEnds s (.next (disarm (if s.dev.busy then s else s.withDev { s.dev with wel := v }))) := by
  split
  · exact .withDev DeviceInv.disarmed
  · exact .withDev (d := { s.dev with wel := v, armed := false }) fun h => ⟨h.wf, h.array, h.op, h.idle⟩

theorem flashExec_ends (i : Instr) (s : State) : FrameEnds s (flashExec i s) := by
  cases i with
  | rdsr => exact .withDev fun h => ⟨h.wf, h.array, h.op, h.idle⟩
  | wren => exact latch_ends s true
  | wrdi => exact latch_ends s false
  | rsten => exact .withDev fun h => ⟨h.wf, h.array, h.op, h.idle⟩
  | rst => exact execRst_ends s
  | qread a n => exact execQread_ends a n s
  | qpp a d => exact execQpp_ends a d s
  | se4k a => exact eraseFrame_ends _ _ s
  | be32k a => exact eraseFrame_ends _ _ s
  | be64k a => exact eraseFrame_ends _ _ s
  | ce => exact eraseFrame_ends _ _ s
  | readStatus | waitNotBusy _ | sendCommand _ _ | writeEnable | resetMemory | read _ _ | write _ _ | erase _ _
  | chipErase | initBus | deinitBus | abiInitialize | abiProgram _ _ | abiEraseRange _ _ | abiVerify => rfl

/-! ### The agents' turn -/

/-- What the agents can come to: a state with `P`, a fault, or a refusal of a frame; no failure and no reset of SEQ. -/
def Res.ByAgents (P : State → Prop) (r : Res Unit) : Prop :=
  match r with
  | .ok _ t => P t
  | .fail _ _ _ => False
  | .reset _ => False
  | .fault _ => True
  | .refused x => x ≠ .controllerBusy ∧ x ≠ .fifoFull

theorem Res.ByAgents.bind {P Q : State → Prop} {r : Res Unit} {k : Unit → State → Res Unit} (h : r.ByAgents P)
    (hk : ∀ t, P t → (k () t).ByAgents Q) : (r.bind k).ByAgents Q := by
  cases r with
  | ok a t => exact hk t h
  | fail c e t => exact h
  | reset t => exact h
  | fault f => trivial
  | refused x => exact h

theorem Res.ByAgents.mono {P Q : State → Prop} {r : Res Unit} (h : r.ByAgents P) (hpq : ∀ t, P t → Q t) :
    r.ByAgents Q := by
  cases r with
  | ok a t => exact hpq t h
  | fail c e t => exact h
  | reset t => exact h
  | fault f => trivial
  | refused x => exact h

theorem Res.ByAgents.sat {P : State → Prop} {r : Res Unit} (h : r.ByAgents P) : r.Sat P := by
  cases r with
  | ok a t => exact h
  | fail c e t => exact h.elim
  | reset t => exact h.elim
  | fault f => trivial
  | refused x => trivial

theorem deliver_ends (f : Frame) (s : State) : (deliver f s).ByAgents (DeviceMove s) := by
  unfold deliver
  split
  · next i _ =>
    have h := flashExec_ends i s
    cases ho : flashExec i s with
    | next t => rw [ho] at h; exact h
    | fault x => trivial
    | refused x => rw [ho] at h; cases h; exact ⟨by decide, by decide⟩
  · exact ⟨by decide, by decide⟩
  · exact ⟨by decide, by decide⟩
  · exact ⟨by decide, by decide⟩

/-- How the agents move the controller: its transaction stays; an idle one stays whole; the FIFO stays within its depth,
and in a write frame it only drains. -/
structure BriMove (c : Cfg) (b b' : Bri) : Prop where
  cfg : b'.cfg = b.cfg
  idle : b.busy = false → b' = b
  depth : b.fifo.length ≤ c.fifoDepth → b'.fifo.length ≤ c.fifoDepth
  drains : b.cfg.direction = .write → b'.fifo.length ≤ b.fifo.length

theorem BriMove.refl (c : Cfg) (b : Bri) : BriMove c b b := ⟨rfl, fun _ => rfl, id, fun _ => le_rfl⟩

theorem BriMove.trans {c : Cfg} {a b d : Bri} (h : BriMove c a b) (k : BriMove c b d) : BriMove c a d where
  cfg := k.cfg.trans h.cfg
  idle hi := by
    have hb := h.idle hi
    exact (k.idle (by rw [hb, hi])).trans hb
  depth := k.depth ∘ h.depth
  drains hd := (k.drains (by rw [h.cfg, hd])).trans (h.drains hd)

/-- What a turn of the agents leaves: SEQ, the host and the record of steps as they were. -/
structure AgentMove (s t : State) : Prop where
  cfg : t.cfg = s.cfg
  seq : t.seq = s.seq
  host : t.host = s.host
  env : t.env = { s.env with frees := t.env.frees }
  bri : BriMove s.cfg s.bri t.bri
  inv : DeviceInv s.cfg s.dev → DeviceInv s.cfg t.dev

theorem AgentMove.refl (s : State) : AgentMove s s := ⟨rfl, rfl, rfl, rfl, .refl _ _, id⟩

theorem AgentMove.trans {s t u : State} (h : AgentMove s t) (k : AgentMove t u) : AgentMove s u where
  cfg := k.cfg.trans h.cfg
  seq := k.seq.trans h.seq
  host := k.host.trans h.host
  env := by rw [k.env, h.env]
  bri := h.bri.trans (h.cfg ▸ k.bri)
  inv := (h.cfg ▸ k.inv) ∘ h.inv

theorem DeviceMove.agentMove {s t : State} (h : DeviceMove s t) {b : Bri} (hb : BriMove s.cfg s.bri b) :
    AgentMove s (t.withBri b) := ⟨h.cfg, h.seq, h.host, h.env, hb, h.inv⟩

/-- The controller's own part of a move. -/
theorem AgentMove.withBri {s : State} {b : Bri} (hb : BriMove s.cfg s.bri b) : AgentMove s (s.withBri b) :=
  (DeviceMove.refl s).agentMove hb

theorem DeviceMove.toAgentMove {s t : State} (h : DeviceMove s t) : AgentMove s t :=
  ⟨h.cfg, h.seq, h.host, h.env, h.bri ▸ .refl _ _, h.inv⟩

theorem applyOp_move (s : State) : (applyOp s).seq = s.seq ∧ (applyOp s).bri = s.bri ∧ (applyOp s).host = s.host
    ∧ (applyOp s).env = { s.env with frees := (applyOp s).env.frees } := by
  unfold applyOp
  split <;> exact ⟨rfl, rfl, rfl, rfl⟩

theorem deviceEnd_move (s : State) : DeviceMove s (deviceEnd s) := by
  by_cases hb : s.dev.busy = true
  · obtain ⟨hseq, hbri, hhost, henv⟩ := applyOp_move s
    have hend : deviceEnd s = (applyOp s).withDev { (applyOp s).dev with op := .none, busy := false, wel := false } := by
      simp [deviceEnd, hb]
    have hinv := deviceEnd_inv (s := s)
    rw [hend] at hinv ⊢
    exact ⟨applyOp_cfg s, hseq, hbri, hhost, henv, hinv⟩
  · rw [deviceEnd_idle (by simpa using hb)]
    exact .refl s

theorem supplyByte_move (s : State) : DeviceMove s (supplyByte s).2 := by
  unfold supplyByte
  split
  · exact .refl s
  · exact .withDev fun h => ⟨h.wf, h.array, h.op, h.idle⟩
  · exact ⟨rfl, rfl, rfl, rfl, rfl, id⟩
  · exact ⟨rfl, rfl, rfl, rfl, rfl, id⟩

theorem commandFrameStep_ends {s : State} (hb : s.bri.busy = true) : (commandFrameStep s).ByAgents (AgentMove s) :=
  (deliver_ends _ s).bind fun t ht => by
    have hbri : t.bri = s.bri := ht.bri
    exact ht.agentMove ⟨by simp [hbri], fun h => by simp [hb] at h, by simp [hbri], fun _ => by simp [hbri]⟩

theorem openReadFrame_ends (s : State) : (openReadFrame s).ByAgents (DeviceMove s) := by
  unfold openReadFrame
  split
  · exact deliver_ends _ s
  · exact .refl s

theorem readFrameStep_ends {s : State} (hb : s.bri.busy = true) (hd : s.bri.cfg.direction = .read) :
    (readFrameStep s).ByAgents (AgentMove s) := by
  have hnw : s.bri.cfg.direction ≠ .write := by rw [hd]; decide
  unfold readFrameStep
  split
  · split
    · exact .withBri ⟨rfl, fun h => by simp [hb] at h, id, fun h => absurd h hnw⟩
    · exact .refl s
  · split
    · next hroom =>
      refine (openReadFrame_ends s).bind fun t ht => ?_
      have hs := supplyByte_move t
      have hbri : (supplyByte t).2.bri = s.bri := hs.bri.trans ht.bri
      have hdev : DeviceMove s (supplyByte t).2 :=
        ⟨hs.cfg.trans ht.cfg, hs.seq.trans ht.seq, hbri, hs.host.trans ht.host, by rw [hs.env, ht.env],
          fun h => ht.cfg ▸ hs.inv (ht.cfg.symm ▸ ht.inv h)⟩
      refine hdev.agentMove ⟨by simp [hbri], fun h => by simp [hb] at h, fun _ => ?_, fun h => absurd h hnw⟩
      simp [hbri]
      omega
    · exact .refl s

theorem writeFrameStep_ends {s : State} (hb : s.bri.busy = true) : (writeFrameStep s).ByAgents (AgentMove s) := by
  unfold writeFrameStep
  split
  · exact .refl s
  · next b rest hf =>
    have hlen : rest.length ≤ s.bri.fifo.length := by simp [hf]
    split
    · exact .refl s
    · dsimp only
      split
      · refine (deliver_ends _ _).bind fun t ht => ?_
        have hbri := ht.bri
        exact ⟨ht.cfg, ht.seq, ht.host, ht.env,
          ⟨by simp [hbri], fun h => by simp [hb] at h, fun h => by simp [hbri]; omega, fun _ => by simp [hbri]; omega⟩, ht.inv⟩
      · exact .withBri ⟨rfl, fun h => by simp [hb] at h, fun h => hlen.trans h, fun _ => hlen⟩

theorem agentStep_ends (a : AgentStep) (s : State) : (agentStep a s).ByAgents (AgentMove s) := by
  cases a with
  | dev => exact (deviceEnd_move s).toAgentMove
  | bri =>
    simp only [agentStep, controllerStep]
    split
    · next hen =>
      have hb : s.bri.busy = true := (Bool.and_eq_true _ _ ▸ hen).2
      split
      · exact commandFrameStep_ends hb
      · next hd => exact readFrameStep_ends hb hd
      · exact writeFrameStep_ends hb
    · exact .refl s

theorem agentSteps_ends : ∀ (l : List AgentStep) (s : State), (agentSteps l s).ByAgents (AgentMove s)
  | [], s => .refl s
  | a :: l, s => (agentStep_ends a s).bind fun t ht => (agentSteps_ends l t).mono fun _ => ht.trans

/-- The other agents' turn in either environment (rules R13, R211). -/
theorem otherAgents_ends (d : Draw) (s : State) : (otherAgents d s).ByAgents (AgentMove s) := by
  unfold otherAgents
  split
  · exact .refl s
  · exact agentSteps_ends _ s

theorem otherAgents_move {d : Draw} {s t : State} (h : otherAgents d s = .ok () t) : AgentMove s t := by
  have := otherAgents_ends d s
  rwa [h] at this

end Sys2Proof.Machine
end

section
/-! The record of SEQ's steps: how it grows from state to state, and the bounds a procedure keeps in every environment: on
its steps, its frames, its failures and the registers it writes. -/

namespace Sys2Proof.Machine

/-! ### Lists of calls -/

theorem framesOf_append (l m : List BusCall) : framesOf (l ++ m) = framesOf l ++ framesOf m := List.filterMap_append

theorem bytesWritten_append (l m : List BusCall) : bytesWritten (l ++ m) = bytesWritten l ++ bytesWritten m :=
  List.filterMap_append

theorem tickCount_append (l m : List BusCall) : tickCount (l ++ m) = tickCount l + tickCount m := by
  simp [tickCount]

/-! ### The record between two states -/

theorem newEntries_eq {s t : State} {es : List TraceEntry} (h : t.env.trace = es ++ s.env.trace) :
    newEntries s t = es := by
  simp [newEntries, h]

/-- The record of `t` continues that of `s`. -/
def Continues (s t : State) : Prop := ∃ es, t.env.trace = es ++ s.env.trace

theorem Continues.eq {s t : State} (h : Continues s t) : t.env.trace = newEntries s t ++ s.env.trace := by
  obtain ⟨es, he⟩ := h
  rw [newEntries_eq he, he]

theorem Continues.of_trace_eq {s t : State} (h : t.env.trace = s.env.trace) : Continues s t := ⟨[], h⟩

theorem Continues.trans {s t u : State} (h : Continues s t) (k : Continues t u) : Continues s u :=
  ⟨newEntries t u ++ newEntries s t, by rw [k.eq, h.eq, List.append_assoc]⟩

theorem newEntries_trans {s t u : State} (h : Continues s t) (k : Continues t u) :
    newEntries s u = newEntries t u ++ newEntries s t :=
  newEntries_eq (by rw [k.eq, h.eq, List.append_assoc])

theorem newCalls_trans {s t u : State} (h : Continues s t) (k : Continues t u) :
    newCalls s u = newCalls s t ++ newCalls t u := by
  simp [newCalls, newEntries_trans h k]

theorem newFrames_trans {s t u : State} (h : Continues s t) (k : Continues t u) :
    newFrames s u = newFrames s t ++ newFrames t u := by
  rw [newFrames, newCalls_trans h k, framesOf_append]
  rfl

theorem newCalls_of_trace_eq {s t : State} (h : t.env.trace = s.env.trace) : newCalls s t = [] := by
  rw [newCalls, newEntries_eq (es := []) h]
  rfl

theorem newCalls_of_trace_cons {s t : State} {pc : Pc} {c : BusCall}
    (h : t.env.trace = { pc := pc, call := c } :: s.env.trace) : newCalls s t = [c] := by
  rw [newCalls, newEntries_eq (es := [{ pc := pc, call := c }]) h]
  rfl

theorem newEntries_length (s t : State) : (newEntries s t).length = (newCalls s t).length := by simp [newCalls]

/-! ### Steps without a reset of SEQ, and a reset of SEQ -/

/-- From `s` to `t` SEQ took the recorded steps, none of them at the host's reset; SEQ's registers apart, and the host's
buffer. -/
structure Traced (s t : State) : Prop where
  cfg : t.cfg = s.cfg
  resetAt : t.host.resetAt = s.host.resetAt
  model : t.env.model = s.env.model
  trace : Continues s t
  now : t.env.now = s.env.now + (newCalls s t).length
  pending : ∀ k, s.host.resetAt = some k → s.env.now ≤ k → t.env.now ≤ k
  dev : s.env.model = .any → t.dev = s.dev

theorem Traced.trans {s t u : State} (h : Traced s t) (k : Traced t u) : Traced s u where
  cfg := k.cfg.trans h.cfg
  resetAt := k.resetAt.trans h.resetAt
  model := k.model.trans h.model
  trace := h.trace.trans k.trace
  now := by rw [newCalls_trans h.trace k.trace, List.length_append, k.now, h.now, Nat.add_assoc]
  pending n hn hle := k.pending n (h.resetAt.trans hn) (h.pending n hn hle)
  dev hm := (k.dev (h.model.trans hm)).trans (h.dev hm)

/-- SEQ's own registers and the host's buffer are no part of the record. -/
theorem Traced.of_env_eq {s t : State} (hc : t.cfg = s.cfg) (hr : t.host.resetAt = s.host.resetAt) (hd : t.dev = s.dev)
    (he : t.env = s.env) : Traced s t where
  cfg := hc
  resetAt := hr
  model := by rw [he]
  trace := .of_trace_eq (by rw [he])
  now := by rw [newCalls_of_trace_eq (by rw [he]), he]; rfl
  pending _ _ h := by rwa [he]
  dev _ := hd

theorem Traced.refl (s : State) : Traced s s := .of_env_eq rfl rfl rfl rfl

theorem Traced.withSeq (s : State) (q : Seq) : Traced s (s.withSeq q) := .of_env_eq rfl rfl rfl rfl

theorem Traced.undisturbed {s t : State} (h : Traced s t) (hu : Undisturbed s) : Undisturbed t :=
  ⟨h.model.trans hu.1, h.resetAt.trans hu.2⟩

/-- From `s` SEQ took the recorded steps up to the host's reset, which left SEQ as after reset (rule R260). -/
structure Interrupted (s t : State) : Prop where
  cfg : t.cfg = s.cfg
  resetAt : s.host.resetAt = some t.env.now
  host : t.host.resetAt = none
  seq : t.seq = Seq.reset
  trace : Continues s t
  now : t.env.now = s.env.now + (newCalls s t).length

theorem Traced.interrupted {s t u : State} (h : Traced s t) (k : Interrupted t u) : Interrupted s u where
  cfg := k.cfg.trans h.cfg
  resetAt := h.resetAt.symm.trans k.resetAt
  host := k.host
  seq := k.seq
  trace := h.trace.trans k.trace
  now := by rw [newCalls_trans h.trace k.trace, List.length_append, k.now, h.now, Nat.add_assoc]

theorem Interrupted.of_resetAt {s : State} (h : s.host.resetAt = some s.env.now) : Interrupted s (resetSeq s) where
  cfg := rfl
  resetAt := h
  host := rfl
  seq := rfl
  trace := .of_trace_eq rfl
  now := by rw [newCalls_of_trace_eq (s := s) (t := resetSeq s) rfl]; rfl

/-! ### What a procedure keeps to -/

/-- At most `n` steps, under well-formed parameters, and no frame but those of `F`. -/
structure Small (n : Nat) (F : Txn → Prop) (s t : State) : Prop where
  steps : s.cfg.wf = true → (newCalls s t).length ≤ n
  frames : ∀ x ∈ newFrames s t, F x

theorem Small.mono {n m : Nat} {F G : Txn → Prop} {s t : State} (h : Small n F s t) (hn : s.cfg.wf = true → n ≤ m)
    (hf : ∀ x, F x → G x) : Small m G s t :=
  ⟨fun hw => (h.steps hw).trans (hn hw), fun x hx => hf x (h.frames x hx)⟩

theorem Small.add {n m : Nat} {F : Txn → Prop} {s t u : State} (ht : Traced s t) (h : Small n F s t)
    (hu : Continues t u) (k : Small m F t u) : Small (n + m) F s u where
  steps hw := by
    rw [newCalls_trans ht.trace hu, List.length_append]
    exact Nat.add_le_add (h.steps hw) (k.steps (ht.cfg ▸ hw))
  frames x hx := by
    rw [newFrames_trans ht.trace hu] at hx
    rcases List.mem_append.mp hx with hx | hx
    · exact h.frames x hx
    · exact k.frames x hx

theorem Small.of_trace_eq {F : Txn → Prop} {s t : State} (h : t.env.trace = s.env.trace) : Small 0 F s t where
  steps _ := by simp [newCalls_of_trace_eq h]
  frames x hx := by simp [newFrames, newCalls_of_trace_eq h, framesOf] at hx

/-- A relation between the registers of SEQ before and after that the poller and the protocol layer keep: they write
`TXN`, the two counters and the status snapshot only, and the FSM state. -/
structure Keeps (K : Seq → Seq → Prop) : Prop where
  refl : ∀ q, K q q
  trans : ∀ p q r, K p q → K q r → K p r
  leaf : ∀ q x b d v pc, K q { q with txn := x, tmoBus := b, tmoDev := d, srSnap := v, pc := pc }

/-- Where a procedure may end, from `s`: in either end after at most `n` steps with frames of `F` only and registers as `K`
says, and a failure in one of the list `L`; in a reset of SEQ; in a stop only under ENV-REF or with an ill-formed record,
and never, under a well-formed one, in a configured busy controller or an overrun FIFO. -/
def Res.Within {α : Type} (n : Nat) (F : Txn → Prop) (L : List (Byte × Cause)) (K : Seq → Seq → Prop) (s : State)
    (r : Res α) : Prop :=
  match r with
  | .ok _ t => Traced s t ∧ Small n F s t ∧ K s.seq t.seq
  | .fail c e t => Traced s t ∧ Small n F s t ∧ K s.seq t.seq ∧ (c, e) ∈ L
  | .reset t => Interrupted s t ∧ Small n F s t
  | .fault _ => s.cfg.wf = true → ¬ Undisturbed s
  | .refused x => s.cfg.wf = true → x ≠ .controllerBusy ∧ x ≠ .fifoFull ∧ ¬ Undisturbed s

section Within

variable {α β : Type} {n m : Nat} {F : Txn → Prop} {L : List (Byte × Cause)} {K : Seq → Seq → Prop} {s : State}

theorem Res.Within.mono {r : Res α} (h : r.Within n F L K s) {G : Txn → Prop} {M : List (Byte × Cause)}
    {J : Seq → Seq → Prop} (hn : s.cfg.wf = true → n ≤ m) (hf : ∀ x, F x → G x) (hl : ∀ p ∈ L, p ∈ M)
    (hk : ∀ p q, K p q → J p q) : r.Within m G M J s := by
  cases r with
  | ok a t => obtain ⟨ht, hs, hk'⟩ := h; exact ⟨ht, hs.mono hn hf, hk _ _ hk'⟩
  | fail c e t => obtain ⟨ht, hs, hk', hm⟩ := h; exact ⟨ht, hs.mono hn hf, hk _ _ hk', hl _ hm⟩
  | reset t => exact ⟨h.1, h.2.mono hn hf⟩
  | fault f => exact h
  | refused x => exact h

/-- Fewer steps than allowed. -/
theorem Res.Within.steps_le {r : Res α} (h : r.Within n F L K s) (hn : s.cfg.wf = true → n ≤ m) : r.Within m F L K s :=
  h.mono hn (fun _ => id) (fun _ => id) fun _ _ => id

theorem Res.Within.ok (hK : Keeps K) (a : α) : (Res.ok a s).Within 0 F L K s := ⟨.refl s, .of_trace_eq rfl, hK.refl _⟩

/-- A register write at the end. -/
theorem Res.Within.ok_withSeq (a : α) {q : Seq} (h : K s.seq q) : (Res.ok a (s.withSeq q)).Within 0 F L K s :=
  ⟨.withSeq s q, .of_trace_eq rfl, h⟩

/-- A part that starts from a state with the same record and parameters. -/
theorem Res.Within.after {t : State} {r : Res α} (h : r.Within n F L K t) (ht : Traced s t)
    (htr : t.env.trace = s.env.trace) (hk : ∀ q, K t.seq q → K s.seq q) : r.Within n F L K s := by
  have hsmall : ∀ u, Continues t u → Small n F t u → Small n F s u := fun u hu hs => by
    have := Small.add ht (.of_trace_eq htr) hu hs
    rwa [Nat.zero_add] at this
  have hund : t.cfg.wf = true → ¬ Undisturbed t → ¬ Undisturbed s := fun _ hn hu => hn (ht.undisturbed hu)
  cases r with
  | ok a u => obtain ⟨h1, h2, h3⟩ := h; exact ⟨ht.trans h1, hsmall u h1.trace h2, hk _ h3⟩
  | fail c e u => obtain ⟨h1, h2, h3, h4⟩ := h; exact ⟨ht.trans h1, hsmall u h1.trace h2, hk _ h3, h4⟩
  | reset u => exact ⟨ht.interrupted h.1, hsmall u h.1.trace h.2⟩
  | fault f => exact fun hw hu => h (ht.cfg ▸ hw) (ht.undisturbed hu)
  | refused x =>
    intro hw
    obtain ⟨h1, h2, h3⟩ := h (ht.cfg ▸ hw)
    exact ⟨h1, h2, fun hu => h3 (ht.undisturbed hu)⟩

/-- A register write before a part. -/
theorem Res.Within.after_withSeq (hK : Keeps K) {q : Seq} {r : Res α} (h : r.Within n F L K (s.withSeq q))
    (hq : K s.seq q) : r.Within n F L K s :=
  h.after (.withSeq s q) rfl fun _ => hK.trans _ _ _ hq

/-- One part after another: the steps add up. -/
theorem Res.Within.bind (hK : Keeps K) {r : Res α} {k : α → State → Res β} (h : r.Within n F L K s)
    (hk : ∀ a t, r = .ok a t → Traced s t → K s.seq t.seq → (k a t).Within m F L K t) :
    (r.bind k).Within (n + m) F L K s := by
  have hle : n ≤ n + m := Nat.le_add_right n m
  cases r with
  | ok a t =>
    obtain ⟨h1, h2, h3⟩ := h
    have hk := hk a t rfl h1 h3
    rw [Res.bind_ok]
    cases hr : k a t with
    | ok b u =>
      rw [hr] at hk
      obtain ⟨k1, k2, k3⟩ := hk
      exact ⟨h1.trans k1, h2.add h1 k1.trace k2, hK.trans _ _ _ h3 k3⟩
    | fail c e u =>
      rw [hr] at hk
      obtain ⟨k1, k2, k3, k4⟩ := hk
      exact ⟨h1.trans k1, h2.add h1 k1.trace k2, hK.trans _ _ _ h3 k3, k4⟩
    | reset u =>
      rw [hr] at hk
      exact ⟨h1.interrupted hk.1, h2.add h1 hk.1.trace hk.2⟩
    | fault f =>
      rw [hr] at hk
      exact fun hw hu => hk (h1.cfg ▸ hw) (h1.undisturbed hu)
    | refused x =>
      rw [hr] at hk
      intro hw
      obtain ⟨k1, k2, k3⟩ := hk (h1.cfg ▸ hw)
      exact ⟨k1, k2, fun hu => k3 (h1.undisturbed hu)⟩
  | fail c e t =>
    obtain ⟨h1, h2, h3, h4⟩ := h
    exact ⟨h1, h2.mono (fun _ => hle) fun _ => id, h3, h4⟩
  | reset t => exact ⟨h.1, h.2.mono (fun _ => hle) fun _ => id⟩
  | fault f => exact h
  | refused x => exact h

/-- A caller's code for a stage (rule R104). -/
theorem Res.Within.recode {r : Res α} {M : List (Byte × Cause)} (c : Byte) (h : r.Within n F L K s)
    (hl : ∀ p ∈ L, (c, p.2) ∈ M) : (r.recode c).Within n F M K s := by
  cases r with
  | ok a t => exact h
  | fail d e t => obtain ⟨h1, h2, h3, h4⟩ := h; exact ⟨h1, h2, h3, hl _ h4⟩
  | reset t => exact h
  | fault f => exact h
  | refused x => exact h

/-- A call: the two changes of the FSM stack are no step and no register. -/
theorem Res.Within.call (hK : Keeps K) (ph : Nat) (p : Proc) {body : State → Res α}
    (h : ∀ t, t.cfg = s.cfg → t.bri = s.bri → t.host = s.host → t.env = s.env → (∃ pc, t.seq = { s.seq with pc := pc }) →
      (body t).Within n F L K t) : (Machine.call ph p s body).Within n F L K s := by
  have hpc : ∀ (q : Seq) (pc : Pc), K q { q with pc := pc } := fun q pc => hK.leaf q q.txn q.tmoBus q.tmoDev q.srSnap pc
  have hb := (h (pushProc p (setPhase ph s)) rfl rfl rfl rfl ⟨_, rfl⟩).after (s := s) (.withSeq s _) rfl
    fun q => hK.trans _ _ _ (hpc _ _)
  unfold Machine.call
  cases hr : body (pushProc p (setPhase ph s)) with
  | ok a t =>
    rw [hr] at hb
    obtain ⟨h1, h2, h3⟩ := hb
    exact ⟨h1.trans (.withSeq t _), ⟨h2.steps, h2.frames⟩, hK.trans _ _ _ h3 (hpc _ _)⟩
  | fail c e t =>
    rw [hr] at hb
    obtain ⟨h1, h2, h3, h4⟩ := hb
    exact ⟨h1.trans (.withSeq t _), ⟨h2.steps, h2.frames⟩, hK.trans _ _ _ h3 (hpc _ _), h4⟩
  | reset t => rw [hr] at hb; exact hb
  | fault f => rw [hr] at hb; exact hb
  | refused x => rw [hr] at hb; exact hb

end Within

/-! ### One SEQ step -/

/-- What the action of a SEQ step comes to: one recorded call, a change of the controller, some free values used; or,
under ENV-REF only, a refusal. -/
def Acts {α : Type} (F : Txn → Prop) (u : State) (r : Res α) : Prop :=
  match r with
  | .ok _ t => ∃ c b k, t = record c (useFree k (u.withBri b)) ∧ ∀ x, c = .configure x → F x
  | .fail _ _ _ => False
  | .reset _ => False
  | .fault _ => False
  | .refused x => u.env.model = .ref ∧ (u.cfg.wf = true → x ≠ .controllerBusy ∧ x ≠ .fifoFull)

theorem Acts.calls {α : Type} {F : Txn → Prop} {u : State} {a : α} (c : BusCall) (hc : ∀ x, c ≠ .configure x) :
    Acts F u (.ok a (record c u)) := ⟨c, u.bri, 0, rfl, fun x h => absurd h (hc x)⟩

theorem Acts.callsBri {α : Type} {F : Txn → Prop} {u : State} {a : α} (c : BusCall) (b : Bri)
    (hc : ∀ x, c ≠ .configure x) : Acts F u (.ok a (record c (u.withBri b))) := ⟨c, b, 0, rfl, fun x h => absurd h (hc x)⟩

theorem onController_acts {α : Type} {F : Txn → Prop} {u : State} {x y : Res α} (hx : Acts F u x)
    (hy : u.env.model = .ref → Acts F u y) : Acts F u (onController u x y) := by
  unfold onController
  split
  · exact hx
  · next hm =>
    split
    · exact hy hm
    · exact ⟨hm, fun _ => ⟨by decide, by decide⟩⟩

section

variable {n m : Nat} {F : Txn → Prop} {L : List (Byte × Cause)} {K : Seq → Seq → Prop} {s : State}

theorem setPhase_keeps (hK : Keeps K) (ph : Nat) (s : State) : K s.seq (setPhase ph s).seq :=
  hK.leaf s.seq s.seq.txn s.seq.tmoBus s.seq.tmoDev s.seq.srSnap _

/-- The state after a SEQ step, but for what the agents do. -/
theorem traced_step {ph : Nat} {c : BusCall} {b : Bri} {k : Nat} {t : State} (hr : s.host.resetAt ≠ some s.env.now)
    (h : AgentMove (record c (useFree k ((advance (setPhase ph s)).withBri b))) t)
    (hd : s.env.model = .any → t.dev = s.dev) : Traced s t ∧ newCalls s t = [c] := by
  have henv : t.env.trace = { pc := (setPhase ph s).seq.pc, call := c } :: s.env.trace := by rw [h.env]; rfl
  have hcalls := newCalls_of_trace_cons henv
  have hnow : t.env.now = s.env.now + 1 := by rw [h.env]; rfl
  refine ⟨⟨h.cfg, by rw [h.host]; rfl, by rw [h.env]; rfl, ⟨[_], henv⟩, by rw [hcalls, hnow]; rfl, ?_, hd⟩, hcalls⟩
  intro j hj hle
  have : j ≠ s.env.now := fun e => hr (e ▸ hj)
  omega

/-- A SEQ step whose action does one call is within one step. -/
theorem seqStep_within {α : Type} (hK : Keeps K) (ph : Nat) {act : Draw → State → Res α}
    (h : Acts F (advance (setPhase ph s)) (act (nextDraw s) (advance (setPhase ph s)))) :
    (seqStep ph s act).Within 1 F L K s := by
  unfold seqStep
  split
  · next hr => exact ⟨.of_resetAt hr, (Small.of_trace_eq (s := s) (t := resetSeq s) rfl).mono (fun _ => Nat.zero_le 1) fun _ => id⟩
  · next hr =>
    cases hact : act (nextDraw s) (advance (setPhase ph s)) with
    | ok a u =>
      rw [hact] at h
      obtain ⟨c, b, k, rfl, hc⟩ := h
      have ho := otherAgents_ends (nextDraw s) (record c (useFree k ((advance (setPhase ph s)).withBri b)))
      have hany : s.env.model = .any → otherAgents (nextDraw s) (record c (useFree k ((advance (setPhase ph s)).withBri b)))
          = .ok () (record c (useFree k ((advance (setPhase ph s)).withBri b))) := fun hm => otherAgents_any _ hm
      rw [Res.bind_ok]
      cases hoa : otherAgents (nextDraw s) (record c (useFree k ((advance (setPhase ph s)).withBri b))) with
      | ok x t =>
        rw [hoa] at ho hany
        obtain ⟨ht, hcalls⟩ := traced_step hr ho fun hm => by have := hany hm; cases this; rfl
        refine ⟨ht, ⟨fun _ => by simp [hcalls], fun x hx => ?_⟩, ?_⟩
        · rw [newFrames, hcalls] at hx
          cases c with
          | configure y => simp [framesOf] at hx; exact hc x (by rw [hx])
          | _ => cases hx
        · have hseq : t.seq = (setPhase ph s).seq := ho.seq
          rw [hseq]
          exact setPhase_keeps hK ph s
      | fail d e t => rw [hoa] at ho; exact ho.elim
      | reset t => rw [hoa] at ho; exact ho.elim
      | fault f => rw [hoa] at hany; exact fun _ hu => by cases hany hu.1
      | refused x =>
        rw [hoa] at hany ho
        exact fun _ => ⟨ho.1, ho.2, fun hu => by cases hany hu.1⟩
    | fail d e t => rw [hact] at h; exact h.elim
    | reset t => rw [hact] at h; exact h.elim
    | fault f => rw [hact] at h; exact h.elim
    | refused x =>
      rw [hact] at h
      obtain ⟨hm, hx⟩ := h
      intro hw
      refine ⟨(hx hw).1, (hx hw).2, fun hu => ?_⟩
      have h1 : s.env.model = .ref := hm
      rw [hu.1] at h1
      cases h1

variable (hK : Keeps K) (ph : Nat)
include hK

theorem tick_within : (tick ph s).Within 1 F L K s := seqStep_within hK ph (.calls _ nofun)

theorem briFlags_within : (briFlags ph s).Within 1 F L K s :=
  seqStep_within hK ph (onController_acts (.calls _ nofun) fun _ => .calls _ nofun)

theorem briTrigger_within : (briTrigger ph s).Within 1 F L K s :=
  seqStep_within hK ph (onController_acts (.calls _ nofun) fun _ => .callsBri _ _ nofun)

theorem briClearTc_within : (briClearTc ph s).Within 1 F L K s :=
  seqStep_within hK ph (onController_acts (.calls _ nofun) fun _ => .callsBri _ _ nofun)

theorem briClearAll_within : (briClearAll ph s).Within 1 F L K s :=
  seqStep_within hK ph (onController_acts (.calls _ nofun) fun _ => .callsBri _ _ nofun)

theorem briInit_within (f : BusInit) : (briInit ph f s).Within 1 F L K s := seqStep_within hK ph (.callsBri _ _ nofun)

theorem briEnable_within : (briEnable ph s).Within 1 F L K s := seqStep_within hK ph (.callsBri _ _ nofun)

theorem briDisable_within : (briDisable ph s).Within 1 F L K s := seqStep_within hK ph ⟨_, _, 2, rfl, nofun⟩

theorem briReadByte_within : (briReadByte ph s).Within 1 F L K s :=
  seqStep_within hK ph (onController_acts (.calls _ nofun) fun hm => by
    split
    · exact ⟨hm, fun _ => ⟨by decide, by decide⟩⟩
    · exact .callsBri _ _ nofun)

/-- The controller is configured while it is not busy (rule R213). -/
theorem briConfigure_within {t : Txn} (ht : F t) (hb : s.env.model = .ref → s.bri.busy = false) :
    (briConfigure ph t s).Within 1 F L K s :=
  seqStep_within hK ph (onController_acts ⟨.configure t, { s.bri with cfg := t }, 0, rfl, fun x hx => by cases hx; exact ht⟩ fun hm => by
    rw [if_neg (by simp [hb hm])]
    exact ⟨.configure t, { s.bri with cfg := t }, 0, rfl, fun x hx => by cases hx; exact ht⟩)

/-- A byte is written while the FIFO has room (rule R217). -/
theorem briWriteByte_within (v : Byte)
    (hf : s.cfg.wf = true → s.env.model = .ref → s.bri.fifo.length < s.cfg.fifoDepth) :
    (briWriteByte ph v s).Within 1 F L K s :=
  seqStep_within hK ph (onController_acts (.calls _ nofun) fun hm => by
    split
    · exact .callsBri _ _ nofun
    · next hfull => exact ⟨hm, fun hw => absurd (hf hw hm) hfull⟩)

end

end Sys2Proof.Machine
end

section
/-! The arithmetic of the loops: the page-confined chunks of a write (rules R151, R152) and the blocks of an erase range
(rules R98, R184). -/

namespace Sys2Proof.Machine

/-! ### Chunks, in numbers -/

section Chunks

variable {p a n j : Nat}

theorem chunkStart_zero (p a : Nat) : chunkStart p a 0 = a := rfl

theorem chunkStart_succ (p a j : Nat) : chunkStart p a (j + 1) = (a / p + (j + 1)) * p := by simp [chunkStart]

theorem chunkStart_le_page (hp : 0 < p) (a j : Nat) : chunkStart p a j < (a / p + j + 1) * p := by
  cases j with
  | zero => simpa [chunkStart_zero, Nat.mul_comm] using Nat.lt_mul_div_succ a hp
  | succ j =>
    rw [chunkStart_succ]
    exact Nat.mul_lt_mul_of_pos_right (by omega) hp

theorem page_le_chunkStart (p a j : Nat) : (a / p + j) * p ≤ chunkStart p a j := by
  cases j with
  | zero => exact Nat.div_mul_le_self a p
  | succ j => rw [chunkStart_succ]

theorem le_chunkStart (hp : 0 < p) (a j : Nat) : a ≤ chunkStart p a j := by
  cases j with
  | zero => exact le_rfl
  | succ j =>
    rw [chunkStart_succ]
    calc a ≤ (a / p + 1) * p := (Nat.lt_div_mul_add hp).le.trans_eq (Nat.succ_mul _ _).symm
      _ ≤ (a / p + (j + 1)) * p := Nat.mul_le_mul_right p (by omega)

/-- A chunk of the count starts inside the range. -/
theorem chunkStart_lt (hn : 0 < n) (hj : j < chunkCount p a n) : chunkStart p a j < a + n := by
  cases j with
  | zero => rw [chunkStart_zero]; omega
  | succ j =>
    have hle : a / p + (j + 1) ≤ (a + n - 1) / p := by unfold chunkCount at hj; omega
    have := (Nat.mul_le_mul_right p hle).trans (Nat.div_mul_le_self (a + n - 1) p)
    rw [chunkStart_succ]
    omega

theorem chunkStart_lt_chunkEnd (hp : 0 < p) (hn : 0 < n) (hj : j < chunkCount p a n) :
    chunkStart p a j < chunkEnd p a n j :=
  Nat.lt_min.mpr ⟨chunkStart_le_page hp a j, chunkStart_lt hn hj⟩

theorem chunkEnd_le (p a n j : Nat) : chunkEnd p a n j ≤ a + n := Nat.min_le_right _ _

theorem chunkStart_add_chunkSize (hp : 0 < p) (hn : 0 < n) (hj : j < chunkCount p a n) :
    chunkStart p a j + chunkSize p a n j = chunkEnd p a n j :=
  Nat.add_sub_cancel' (chunkStart_lt_chunkEnd hp hn hj).le

theorem chunkSize_pos (hp : 0 < p) (hn : 0 < n) (hj : j < chunkCount p a n) : 0 < chunkSize p a n j :=
  Nat.sub_pos_of_lt (chunkStart_lt_chunkEnd hp hn hj)

theorem chunkSize_le_page (p a n j : Nat) : chunkSize p a n j ≤ p := by
  have h1 := page_le_chunkStart p a j
  have h2 : chunkEnd p a n j ≤ (a / p + j + 1) * p := Nat.min_le_left _ _
  rw [Nat.succ_mul] at h2
  unfold chunkSize
  omega

theorem chunkSize_le (hp : 0 < p) (a n j : Nat) : chunkSize p a n j ≤ n := by
  have h1 := le_chunkStart hp a j
  have h2 := chunkEnd_le p a n j
  unfold chunkSize
  omega

/-- Each chunk but the last ends at the page boundary where the next starts (rule R152). -/
theorem chunkEnd_eq_chunkStart_succ (hn : 0 < n) (hj : j + 1 < chunkCount p a n) :
    chunkEnd p a n j = chunkStart p a (j + 1) := by
  have hle : a / p + j + 1 ≤ (a + n - 1) / p := by unfold chunkCount at hj; omega
  have := (Nat.mul_le_mul_right p hle).trans (Nat.div_mul_le_self (a + n - 1) p)
  rw [chunkStart_succ, chunkEnd, Nat.min_eq_left (by omega), Nat.add_assoc]

/-- The last chunk ends at the end of the range. -/
theorem chunkEnd_last (hp : 0 < p) (hn : 0 < n) (hj : j + 1 = chunkCount p a n) : chunkEnd p a n j = a + n := by
  have hmono : a / p ≤ (a + n - 1) / p := Nat.div_le_div_right (by omega)
  have hpage : a / p + j = (a + n - 1) / p := by unfold chunkCount at hj; omega
  have := Nat.lt_mul_div_succ (a + n - 1) hp
  refine Nat.min_eq_right ?_
  rw [hpage, Nat.mul_comm]
  omega

theorem chunkCount_pos (p a n : Nat) : 0 < chunkCount p a n := Nat.succ_pos _

/-- A chunk that ends before the range does is not the last. -/
theorem succ_lt_chunkCount (hp : 0 < p) (hn : 0 < n) (hj : j < chunkCount p a n) (h : chunkEnd p a n j ≠ a + n) :
    j + 1 < chunkCount p a n :=
  lt_of_le_of_ne hj fun e => h (chunkEnd_last hp hn e)

/-- Each chunk has a byte, so there are at most as many chunks as bytes. -/
theorem chunkCount_le (hp : 0 < p) (hn : 0 < n) (a : Nat) : chunkCount p a n ≤ n := by
  have hlt : (a + n - 1) / p < a / p + n := by
    rw [Nat.div_lt_iff_lt_mul hp, Nat.add_mul]
    have h1 := Nat.lt_div_mul_add (a := a) hp
    have h2 : n - 1 + p ≤ n * p := by
      obtain ⟨m, rfl⟩ : ∃ m, n = m + 1 := ⟨n - 1, by omega⟩
      rw [Nat.succ_mul, Nat.add_sub_cancel]
      exact Nat.add_le_add_right (Nat.le_mul_of_pos_right m hp) p
    omega
  unfold chunkCount
  omega

end Chunks

/-! ### The registers of the chunk loop (rule R151) -/

/-- The loop registers at the start of chunk `j` of a write of `n` bytes at `a`. -/
structure ChunkAt (c : Cfg) (a n j : Nat) (q : Seq) : Prop where
  curAddr : q.curAddr = BitVec.ofNat 32 (chunkStart c.pageSize a j)
  curSize : q.curSize = BitVec.ofNat 32 (chunkSize c.pageSize a n j)
  endAddr : q.endAddr = BitVec.ofNat 32 (a + n)
  bufOff : q.bufOff = BitVec.ofNat 32 (chunkStart c.pageSize a j - a)

theorem ChunkAt.curSize_toNat {c : Cfg} {a n j : Nat} {q : Seq} (h : ChunkAt c a n j q) (hp : 0 < c.pageSize)
    (hn : n < 2 ^ 32) : q.curSize.toNat = chunkSize c.pageSize a n j := by
  have := chunkSize_le hp a n j
  rw [h.curSize, BitVec.toNat_ofNat, Nat.mod_eq_of_lt (by omega)]

theorem firstChunk_eq {c : Cfg} (hp : 0 < c.pageSize) (addr len : Word) :
    firstChunk c addr len = BitVec.ofNat 32 (chunkSize c.pageSize addr.toNat len.toNat 0) := by
  have hmod := Nat.mod_lt addr.toNat hp
  have hdiv := Nat.div_add_mod' addr.toNat c.pageSize
  unfold firstChunk chunkSize chunkEnd
  rw [chunkStart_zero, Nat.add_zero, Nat.succ_mul]
  congr 1
  omega

/-- The registers WRITE starts its loop with are those of chunk 0. -/
theorem chunkAt_zero {c : Cfg} (hp : 0 < c.pageSize) (addr len : Word) (s : State) :
    ChunkAt c addr.toNat len.toNat 0 (setProgramLoop addr (firstChunk c addr len) (addr + len) 0 s).seq where
  curAddr := by simp [chunkStart_zero]
  curSize := firstChunk_eq hp addr len
  endAddr := by simp [BitVec.ofNat_add]
  bufOff := by simp [chunkStart_zero]

/-- The distance to the end of the range, for a place in it: it does not overflow. -/
theorem ofNat_sub_toNat {a n x : Nat} (hn : n < 2 ^ 32) (hx : a ≤ x) (hxe : x ≤ a + n) :
    (BitVec.ofNat 32 (a + n) - BitVec.ofNat 32 x).toNat = a + n - x := by
  obtain ⟨d, hd⟩ : ∃ d, a + n = x + d := ⟨a + n - x, by omega⟩
  rw [hd, BitVec.ofNat_add, BitVec.add_comm, BitVec.add_sub_cancel, BitVec.toNat_ofNat]
  omega

section NextChunk

variable {c : Cfg} {a n j : Nat} {s : State}

/-- The next chunk's address and offset are the end of this one. -/
theorem nextChunkRegs_cur (h : ChunkAt c a n j s.seq) (hp : 0 < c.pageSize) (hn : 0 < n) (hj : j < chunkCount c.pageSize a n) :
    (nextChunkRegs s).seq.curAddr = BitVec.ofNat 32 (chunkEnd c.pageSize a n j)
      ∧ (nextChunkRegs s).seq.bufOff = BitVec.ofNat 32 (chunkEnd c.pageSize a n j - a)
      ∧ (nextChunkRegs s).seq.endAddr = BitVec.ofNat 32 (a + n) := by
  have hend := chunkStart_add_chunkSize hp hn hj
  have hle := le_chunkStart hp a j
  refine ⟨?_, ?_, h.endAddr⟩
  · simp [nextChunkRegs, h.curAddr, h.curSize, ← BitVec.ofNat_add, hend]
  · have : chunkStart c.pageSize a j - a + chunkSize c.pageSize a n j = chunkEnd c.pageSize a n j - a := by omega
    simp [nextChunkRegs, h.bufOff, h.curSize, ← BitVec.ofNat_add, this]

/-- The size of the next chunk is what is left of the range, at most a page. -/
theorem nextChunkRegs_curSize (hc : s.cfg = c) (h : ChunkAt c a n j s.seq) (hp : 0 < c.pageSize) (hn : 0 < n)
    (hn' : n < 2 ^ 32) (hj : j < chunkCount c.pageSize a n) :
    (nextChunkRegs s).seq.curSize = BitVec.ofNat 32 (min c.pageSize (a + n - chunkEnd c.pageSize a n j)) := by
  have hcur : s.seq.curAddr + s.seq.curSize = BitVec.ofNat 32 (chunkEnd c.pageSize a n j) :=
    (nextChunkRegs_cur h hp hn hj).1
  have hle := (le_chunkStart hp a j).trans (chunkStart_lt_chunkEnd hp hn hj).le
  change nextChunk s.cfg s.seq.endAddr (s.seq.curAddr + s.seq.curSize) = _
  rw [nextChunk, hcur, h.endAddr, ofNat_sub_toNat hn' hle (chunkEnd_le _ _ _ _), hc]

/-- After a chunk that is not the last the registers are those of the next. -/
theorem chunkAt_succ (hc : s.cfg = c) (h : ChunkAt c a n j s.seq) (hp : 0 < c.pageSize) (hn : 0 < n) (hn' : n < 2 ^ 32)
    (hj : j + 1 < chunkCount c.pageSize a n) : ChunkAt c a n (j + 1) (nextChunkRegs s).seq := by
  have hend := chunkEnd_eq_chunkStart_succ hn hj
  have hj' : j < chunkCount c.pageSize a n := by omega
  obtain ⟨hcur, hoff, hlast⟩ := nextChunkRegs_cur h hp hn hj'
  refine ⟨hend ▸ hcur, ?_, hlast, hend ▸ hoff⟩
  rw [nextChunkRegs_curSize hc h hp hn hn' hj', hend]
  have hpage : chunkStart c.pageSize a (j + 1) + c.pageSize = (a / c.pageSize + (j + 1) + 1) * c.pageSize := by
    rw [chunkStart_succ, ← Nat.succ_mul]
  congr 1
  unfold chunkSize chunkEnd
  omega

/-- The loop goes on only after a chunk that is not the last. -/
theorem succ_lt_chunkCount_of_lt (h : ChunkAt c a n j s.seq) (hp : 0 < c.pageSize) (hn : 0 < n)
    (hj : j < chunkCount c.pageSize a n) (hlt : (nextChunkRegs s).seq.curAddr < (nextChunkRegs s).seq.endAddr) :
    j + 1 < chunkCount c.pageSize a n := by
  refine succ_lt_chunkCount hp hn hj fun e => ?_
  obtain ⟨hcur, _, hlast⟩ := nextChunkRegs_cur h hp hn hj
  rw [hcur, hlast, e] at hlt
  exact absurd hlt (BitVec.lt_irrefl _)

/-- In a range that ends below 2^32 the loop goes on after every chunk but the last. -/
theorem nextChunkRegs_lt_iff (h : ChunkAt c a n j s.seq) (hp : 0 < c.pageSize) (hn : 0 < n) (hle : a + n < 2 ^ 32)
    (hj : j < chunkCount c.pageSize a n) :
    (nextChunkRegs s).seq.curAddr < (nextChunkRegs s).seq.endAddr ↔ j + 1 < chunkCount c.pageSize a n := by
  refine ⟨succ_lt_chunkCount_of_lt h hp hn hj, fun hj' => ?_⟩
  obtain ⟨hcur, _, hlast⟩ := nextChunkRegs_cur h hp hn hj
  have hlt := chunkStart_lt hn hj'
  rw [hcur, hlast, chunkEnd_eq_chunkStart_succ hn hj', BitVec.lt_def, BitVec.toNat_ofNat, BitVec.toNat_ofNat]
  omega

/-- After the last chunk the registers stand at the end of the range. -/
theorem nextChunkRegs_last (hc : s.cfg = c) (h : ChunkAt c a n j s.seq) (hp : 0 < c.pageSize) (hn : 0 < n)
    (hn' : n < 2 ^ 32) (hj : j + 1 = chunkCount c.pageSize a n) :
    (nextChunkRegs s).seq.curAddr = BitVec.ofNat 32 (a + n) ∧ (nextChunkRegs s).seq.bufOff = BitVec.ofNat 32 n
      ∧ (nextChunkRegs s).seq.endAddr = BitVec.ofNat 32 (a + n) ∧ (nextChunkRegs s).seq.curSize = 0 := by
  have hend := chunkEnd_last hp hn hj
  have hj' : j < chunkCount c.pageSize a n := by omega
  obtain ⟨hcur, hoff, hlast⟩ := nextChunkRegs_cur h hp hn hj'
  refine ⟨hend ▸ hcur, ?_, hlast, ?_⟩
  · rw [hoff, hend, Nat.add_sub_cancel_left]
  · rw [nextChunkRegs_curSize hc h hp hn hn' hj', hend]
    simp

end NextChunk

/-! ### Powers of two (rule R9) -/

theorem isPowerOfTwo_pos {n : Nat} (h : isPowerOfTwo n = true) : 0 < n := by
  simp only [isPowerOfTwo, Bool.and_eq_true, bne_iff_ne] at h
  exact Nat.pos_of_ne_zero h.1

theorem isPowerOfTwo_eq {n : Nat} (h : isPowerOfTwo n = true) : ∃ k, n = 2 ^ k := by
  simp only [isPowerOfTwo, Bool.and_eq_true, beq_iff_eq] at h
  exact ⟨_, h.2⟩

theorem Cfg.wf_pageSize {c : Cfg} (h : c.wf = true) : isPowerOfTwo c.pageSize = true := by
  simp only [Cfg.wf, Bool.and_eq_true] at h
  tauto

theorem Cfg.wf_subsectorSize {c : Cfg} (h : c.wf = true) : isPowerOfTwo c.subsectorSize = true := by
  simp only [Cfg.wf, Bool.and_eq_true] at h
  tauto

theorem Cfg.wf_pageSize_pos {c : Cfg} (h : c.wf = true) : 0 < c.pageSize := isPowerOfTwo_pos (Cfg.wf_pageSize h)

theorem Cfg.wf_subsectorSize_pos {c : Cfg} (h : c.wf = true) : 0 < c.subsectorSize :=
  isPowerOfTwo_pos (Cfg.wf_subsectorSize h)

theorem Cfg.wf_abiAddrMask {c : Cfg} (h : c.wf = true) : c.abiAddrMask.toNat + c.subsectorSize < 2 ^ 32 := by
  simp only [Cfg.wf, Bool.and_eq_true, decide_eq_true_eq] at h
  tauto

theorem Cfg.wf_fifoThreshold {c : Cfg} (h : c.wf = true) : 1 ≤ c.fifoThreshold := by
  simp only [Cfg.wf, Bool.and_eq_true, decide_eq_true_eq] at h
  tauto

/-! ### Blocks of an erase range (rules R98, R184) -/

theorem and_not_lowMask {k : Nat} (a m : Word) (hm : ∀ i, i < 32 → m.getLsbD i = decide (i < k)) :
    a &&& ~~~m = (a >>> k) <<< k := by
  apply BitVec.eq_of_getLsbD_eq
  intro i hi
  rw [BitVec.getLsbD_and, BitVec.getLsbD_not, hm i hi, BitVec.getLsbD_shiftLeft, BitVec.getLsbD_ushiftRight]
  by_cases hik : i < k
  · simp [hik]
  · have : k + (i - k) = i := by omega
    simp [hik, hi, this]

/-- Clearing the low bits of a word rounds it down to a multiple of a power of two. -/
theorem and_not_pred_toNat {k : Nat} (hk : 2 ^ k < 2 ^ 32) (a : Word) :
    (a &&& ~~~(BitVec.ofNat 32 (2 ^ k) - 1)).toNat = a.toNat - a.toNat % 2 ^ k := by
  have hpred : (BitVec.ofNat 32 (2 ^ k) - 1).toNat = 2 ^ k - 1 := by
    have hpos := Nat.two_pow_pos k
    rw [BitVec.toNat_sub_of_le, BitVec.toNat_ofNat, Nat.mod_eq_of_lt hk]
    · rfl
    · rw [BitVec.le_def, BitVec.toNat_ofNat, Nat.mod_eq_of_lt hk]
      exact hpos
  have hbits : a &&& ~~~(BitVec.ofNat 32 (2 ^ k) - 1) = (a >>> k) <<< k :=
    and_not_lowMask a _ fun i _ => by rw [BitVec.getLsbD, hpred, Nat.testBit_two_pow_sub_one]
  have hle := Nat.div_mul_le_self a.toNat (2 ^ k)
  have hdm := Nat.div_add_mod' a.toNat (2 ^ k)
  rw [hbits, BitVec.toNat_shiftLeft, BitVec.toNat_ushiftRight, Nat.shiftRight_eq_div_pow, Nat.shiftLeft_eq,
    Nat.mod_eq_of_lt (lt_of_le_of_lt hle a.isLt)]
  omega

/-- A masked address leaves room for a block (rule R9). -/
theorem abiMask_le (c : Cfg) (a : Word) : (a &&& c.abiAddrMask).toNat ≤ c.abiAddrMask.toNat := by
  rw [BitVec.toNat_and]
  exact Nat.and_le_right

/-- The erase start is the masked start rounded down, as a number. -/
theorem abiEraseStart_toNat {c : Cfg} (h : c.wf = true) (first : Word) :
    (abiEraseStart c first).toNat = rangeStart c first := by
  obtain ⟨k, hk⟩ := isPowerOfTwo_eq (Cfg.wf_subsectorSize h)
  have hm := Cfg.wf_abiAddrMask h
  rw [abiEraseStart, abiMask, rangeStart, hk]
  exact and_not_pred_toNat (by omega) _

section Blocks

variable {c : Cfg} {first last : Word}

theorem rangeEnd_le (c : Cfg) (last : Word) : rangeEnd c last ≤ c.abiAddrMask.toNat := abiMask_le c last

theorem rangeStart_dvd (c : Cfg) (first : Word) : rangeStart c first % c.subsectorSize = 0 := by
  unfold rangeStart
  rw [Nat.sub_mod_eq_zero_of_mod_eq (Nat.mod_mod _ _).symm]

/-- Block `j` is in the range exactly if it is one of the count. -/
theorem lt_blockCount_iff (hz : 0 < c.subsectorSize) (j : Nat) :
    j < blockCount c first last ↔ rangeStart c first + j * c.subsectorSize ≤ rangeEnd c last := by
  have hstart : rangeStart c first = rangeStart c first / c.subsectorSize * c.subsectorSize := by
    have := Nat.div_add_mod' (rangeStart c first) c.subsectorSize
    rw [rangeStart_dvd] at this
    omega
  have hle : rangeStart c first + j * c.subsectorSize ≤ rangeEnd c last ↔
      rangeStart c first / c.subsectorSize + j ≤ rangeEnd c last / c.subsectorSize := by
    rw [Nat.le_div_iff_mul_le hz, Nat.add_mul, ← hstart]
  unfold blockCount
  split
  · next h =>
    have := Nat.div_le_div_right (c := c.subsectorSize) h
    rw [hle]
    omega
  · constructor
    · intro h
      omega
    · intro h
      have := Nat.le_add_right (rangeStart c first) (j * c.subsectorSize)
      omega

end Blocks

end Sys2Proof.Machine
end

section
/-! The bounds of every procedure, in every environment (rules R104, R218, R232, R272): its steps, its frames, its failures
and the registers it writes. -/

namespace Sys2Proof.Machine

/-! ### What SEQ knows of the controller after a wait and after ISSUE -/

theorem seqStep_ok_move {α : Type} {ph : Nat} {act : Draw → State → Res α} {a : α} {s t : State}
    (h : seqStep ph s act = .ok a t) :
    ∃ u, act (nextDraw s) (advance (setPhase ph s)) = .ok a u ∧ AgentMove u t := by
  obtain ⟨_, u, hu, ho⟩ := seqStep_eq_ok.mp h
  exact ⟨u, hu, otherAgents_move ho⟩

/-- Under ENV-REF an `Ok` primitive had an enabled controller (U4). -/
theorem onController_ref_ok {α : Type} {u t : State} {x y : Res α} {a : α} (hm : u.env.model = .ref)
    (h : onController u x y = .ok a t) : u.bri.en = true ∧ y = .ok a t := by
  unfold onController at h
  simp only [hm] at h
  split at h
  · exact ⟨‹_›, h⟩
  · cases h

/-- The sample of `bri.flags` under ENV-REF is that of the controller (rule R215), after which the agents may move. -/
theorem briFlags_ok_ref {ph : Nat} {f : FlagSet} {s t : State} (hm : s.env.model = .ref) (h : briFlags ph s = .ok f t) :
    f = controllerFlags s.cfg s.bri ∧ BriMove s.cfg s.bri t.bri ∧ t.cfg = s.cfg ∧ t.env.model = .ref := by
  obtain ⟨u, hu, ht⟩ := seqStep_ok_move h
  obtain ⟨_, hy⟩ := onController_ref_ok (u := advance (setPhase ph s)) hm hu
  cases hy
  exact ⟨rfl, ht.bri, ht.cfg, by rw [ht.env]; exact hm⟩

theorem tick_ok_move {ph : Nat} {s t : State} (h : tick ph s = .ok () t) :
    BriMove s.cfg s.bri t.bri ∧ t.cfg = s.cfg ∧ t.env.model = s.env.model := by
  obtain ⟨u, hu, ht⟩ := seqStep_ok_move h
  cases hu
  exact ⟨ht.bri, ht.cfg, by rw [ht.env]; rfl⟩

/-- A wait that was met under ENV-REF saw its condition on a controller that the agents had moved and then moved on. -/
theorem waitFlagLoop_met {mask : FlagSet} {e : Bool} : ∀ {n : Nat} {s t : State}, s.env.model = .ref →
    waitFlagLoop mask e n s = .ok .met t →
    ∃ b, BriMove s.cfg s.bri b ∧ flagsMet mask e (controllerFlags s.cfg b) = true ∧ BriMove s.cfg b t.bri
  | 0, _, _, _, h => by cases h
  | n + 1, s, t, hm, h => by
    obtain ⟨f, u, hf, hk⟩ := Res.bind_eq_ok.mp h
    obtain ⟨rfl, hbri, hcfg, hmodel⟩ := briFlags_ok_ref hm hf
    split at hk
    · next hmet => cases hk; exact ⟨s.bri, .refl _ _, hmet, hbri⟩
    · obtain ⟨_, v, hv, hw⟩ := Res.bind_eq_ok.mp hk
      obtain ⟨hbri', hcfg', hmodel'⟩ := tick_ok_move hv
      have hcv : v.cfg = s.cfg := hcfg'.trans hcfg
      obtain ⟨b, h1, h2, h3⟩ := waitFlagLoop_met (s := countTmoBus v) (hmodel'.trans hmodel) hw
      simp only [countTmoBus_cfg, countTmoBus_bri, hcv] at h1 h2 h3
      exact ⟨b, (hbri.trans (hcfg ▸ hbri')).trans h1, h2, h3⟩

theorem callWait_met {ph : Nat} {mask : FlagSet} {e : Bool} {s t : State} (hm : s.env.model = .ref)
    (h : callWait ph mask e s = .ok .met t) :
    ∃ b, BriMove s.cfg s.bri b ∧ flagsMet mask e (controllerFlags s.cfg b) = true ∧ BriMove s.cfg b t.bri := by
  obtain ⟨u, hu, rfl⟩ := Res.popped_eq_ok.mp h
  have hloop := waitFlagLoop_met (s := setTmoBus s.cfg.busWaitTicks (pushProc .waitFlag (setPhase ph s))) (t := u) hm hu
  exact hloop

/-- Bus idle was seen, and an idle controller stays so until the next trigger (rule R219). -/
theorem callWait_idle {ph : Nat} {s t : State} (hm : s.env.model = .ref)
    (h : callWait ph maskBusy false s = .ok .met t) : t.bri.busy = false := by
  obtain ⟨b, _, hmet, hmove⟩ := callWait_met hm h
  have hb : b.busy = false := by simpa [flagsMet, someFlag, maskBusy, controllerFlags] using hmet
  rw [hmove.idle hb, hb]

/-- Space was seen in the FIFO of a write frame, which until SEQ writes can only drain (rules R215, R217). -/
theorem callWait_room {ph : Nat} {s t : State} (hw : s.cfg.wf = true) (hm : s.env.model = .ref)
    (hd : s.bri.cfg.direction = .write) (h : callWait ph maskFt true s = .ok .met t) :
    t.bri.fifo.length < s.cfg.fifoDepth := by
  obtain ⟨b, hfrom, hmet, hmove⟩ := callWait_met hm h
  have hdir : b.cfg.direction = .write := by rw [hfrom.cfg, hd]
  have hft : fifoThresholdFlag s.cfg b = true := by simpa [flagsMet, someFlag, maskFt, controllerFlags] using hmet
  have hroom : s.cfg.fifoThreshold ≤ s.cfg.fifoDepth - b.fifo.length := by
    simp only [fifoThresholdFlag, hdir, Bool.and_eq_true, decide_eq_true_eq] at hft
    exact hft.2
  have := Cfg.wf_fifoThreshold hw
  have := hmove.drains hdir
  omega

/-- A met wait leaves the transaction, in a state of either environment. -/
theorem callWait_direction {ph : Nat} {mask : FlagSet} {e : Bool} {s t : State} (hm : s.env.model = .ref)
    (h : callWait ph mask e s = .ok .met t) : t.bri.cfg = s.bri.cfg := by
  obtain ⟨b, hfrom, _, hmove⟩ := callWait_met hm h
  rw [hmove.cfg, hfrom.cfg]

theorem briConfigure_ok {ph : Nat} {x : Txn} {s t : State} (h : briConfigure ph x s = .ok () t) : t.bri.cfg = x := by
  obtain ⟨u, hu, ht⟩ := seqStep_ok_move h
  rw [ht.bri.cfg]
  unfold onController at hu
  split at hu
  · cases hu; rfl
  · split at hu
    · split at hu
      · cases hu
      · cases hu; rfl
    · cases hu

theorem briTrigger_ok {ph : Nat} {s t : State} (h : briTrigger ph s = .ok () t) : t.bri.cfg = s.bri.cfg := by
  obtain ⟨u, hu, ht⟩ := seqStep_ok_move h
  rw [ht.bri.cfg]
  unfold onController at hu
  split at hu
  · cases hu; rfl
  · split at hu
    · cases hu; rfl
    · cases hu

theorem startFrame_ok {x : Txn} {s t : State} (h : startFrame x s = .ok () t) : t.bri.cfg = x := by
  obtain ⟨_, u, hu, hk⟩ := Res.bind_eq_ok.mp h
  rw [briTrigger_ok hk, briConfigure_ok hu]

/-- After ISSUE the controller holds the transaction. -/
theorem callIssue_ok {ph : Nat} {code : Byte} {x : Txn} {s t : State} (h : callIssue ph code x s = .ok () t) :
    t.bri.cfg = x := by
  obtain ⟨u, hu, rfl⟩ := Res.popped_eq_ok.mp (Res.orTimeout_eq_ok.mp h)
  obtain ⟨w, v, _, hk⟩ := Res.bind_eq_ok.mp hu
  cases w with
  | timeout => cases hk
  | met =>
    obtain ⟨_, y, hy, hz⟩ := Res.bind_eq_ok.mp hk
    cases hz
    have hcfg := startFrame_ok hy
    exact hcfg

theorem briWriteByte_ok {ph : Nat} {v : Byte} {s t : State} (h : briWriteByte ph v s = .ok () t) :
    t.bri.cfg = s.bri.cfg := by
  obtain ⟨u, hu, ht⟩ := seqStep_ok_move h
  rw [ht.bri.cfg]
  unfold onController at hu
  split at hu
  · cases hu; rfl
  · split at hu
    · split at hu
      · cases hu; rfl
      · cases hu
    · cases hu

/-! ### Registers the loops keep -/

/-- The registers of the program loop and of the erase range, and `INITED`, are as before. -/
structure SameRange (q q' : Seq) : Prop where
  curAddr : q'.curAddr = q.curAddr
  curSize : q'.curSize = q.curSize
  endAddr : q'.endAddr = q.endAddr
  bufOff : q'.bufOff = q.bufOff
  erAddr : q'.erAddr = q.erAddr
  erEnd : q'.erEnd = q.erEnd
  inited : q'.inited = q.inited

theorem SameRange.keeps : Keeps SameRange where
  refl _ := ⟨rfl, rfl, rfl, rfl, rfl, rfl, rfl⟩
  trans _ _ _ h k := ⟨k.1.trans h.1, k.2.trans h.2, k.3.trans h.3, k.4.trans h.4, k.5.trans h.5, k.6.trans h.6,
    k.7.trans h.7⟩
  leaf _ _ _ _ _ _ := ⟨rfl, rfl, rfl, rfl, rfl, rfl, rfl⟩

/-- `INITED` is as before. -/
def SameInited (q q' : Seq) : Prop := q'.inited = q.inited

theorem SameInited.keeps : Keeps SameInited := ⟨fun _ => rfl, fun _ _ _ h k => k.trans h, fun _ _ _ _ _ _ => rfl⟩

theorem SameRange.sameInited {q q' : Seq} (h : SameRange q q') : SameInited q q' := h.inited

/-- What an `Ok` end says of the registers. -/
theorem Res.Within.keeps {α : Type} {n : Nat} {F : Txn → Prop} {L : List (Byte × Cause)} {K : Seq → Seq → Prop}
    {s t : State} {r : Res α} {a : α} (h : r.Within n F L K s) (hr : r = .ok a t) : Traced s t ∧ K s.seq t.seq := by
  rw [hr] at h
  exact ⟨h.1, h.2.2⟩

theorem Res.bind_assoc {α β γ : Type} (r : Res α) (k : α → State → Res β) (l : β → State → Res γ) :
    (r.bind k).bind l = r.bind fun a s => (k a s).bind l := by
  cases r <;> rfl

section Procedures

variable {c : Cfg} {F : Txn → Prop} {L : List (Byte × Cause)} {K : Seq → Seq → Prop} {s : State} (hK : Keeps K)
include hK

/-! ### Waits and frames -/

theorem waitFlagLoop_within (mask : FlagSet) (e : Bool) : ∀ (n : Nat) (s : State),
    (waitFlagLoop mask e n s).Within (2 * n) F L K s
  | 0, s => .ok hK _
  | n + 1, s =>
    ((briFlags_within hK 1).bind (m := 1 + 2 * n) hK fun f t _ _ _ => by
      split
      · exact (Res.Within.ok hK _).steps_le fun _ => Nat.zero_le _
      · refine (tick_within hK 2).bind hK fun _ u _ _ _ => ?_
        exact (waitFlagLoop_within mask e n (countTmoBus u)).after_withSeq hK
          (hK.leaf u.seq u.seq.txn _ u.seq.tmoDev u.seq.srSnap u.seq.pc)).steps_le fun _ => by omega

theorem callWait_within (hc : s.cfg = c) (ph : Nat) (mask : FlagSet) (e : Bool) :
    (callWait ph mask e s).Within (2 * c.busWaitTicks.toNat) F L K s := by
  subst hc
  exact Res.Within.call hK ph _ fun t hct _ _ _ _ =>
    (waitFlagLoop_within hK mask e _ (setTmoBus s.cfg.busWaitTicks t)).after_withSeq hK
      (hK.leaf t.seq t.seq.txn _ t.seq.tmoDev t.seq.srSnap t.seq.pc)

omit hK in
theorem Res.Within.orTimeout {r : Res Waited} {n : Nat} {code : Byte} (hK : Keeps K) (h : r.Within n F L K s)
    (hL : (code, .busTimeout) ∈ L) : (r.orTimeout code).Within n F L K s :=
  h.bind (m := 0) hK fun w t _ _ _ => by
    cases w with
    | met => exact .ok hK ()
    | timeout => exact ⟨.refl t, .of_trace_eq rfl, hK.refl _, hL⟩

/-- A wait whose expiry is a failure with the stage's code. -/
theorem callWaitOr_within (hc : s.cfg = c) (ph : Nat) (mask : FlagSet) (e : Bool) {code : Byte}
    (hL : (code, .busTimeout) ∈ L) :
    ((callWait ph mask e s).orTimeout code).Within (2 * c.busWaitTicks.toNat) F L K s :=
  (callWait_within hK hc ph mask e).orTimeout hK hL

/-- ISSUE configures a controller that was seen idle. -/
theorem callIssue_within (hc : s.cfg = c) (ph : Nat) {code : Byte} {x : Txn} (hF : F x) (hL : (code, .busTimeout) ∈ L) :
    (callIssue ph code x s).Within (2 * c.busWaitTicks.toNat + 2) F L K s := by
  refine Res.Within.orTimeout hK (Res.Within.call hK ph _ fun t hct _ _ _ _ => ?_) hL
  refine (callWait_within hK (hct.trans hc) 1 maskBusy false).bind hK fun w u hw hu _ => ?_
  cases w with
  | timeout => exact (Res.Within.ok hK _).steps_le fun _ => Nat.zero_le _
  | met =>
    have hidle : (setTxn x u).env.model = .ref → (setTxn x u).bri.busy = false := fun hm => by
      have hmt : t.env.model = .ref := hu.model.symm.trans hm
      have hidle := callWait_idle hmt hw
      exact hidle
    have hframe : (startFrame x u).Within 2 F L K u :=
      Res.Within.after_withSeq hK ((briConfigure_within hK 2 hF hidle).bind (m := 1) hK fun _ _ _ _ _ =>
        briTrigger_within hK 3) (hK.leaf u.seq x u.seq.tmoBus u.seq.tmoDev u.seq.srSnap u.seq.pc)
    exact hframe.bind (m := 0) hK fun _ _ _ _ _ => .ok hK _

/-! ### The poller and the protocol layer -/

theorem readStatus_within (hc : s.cfg = c) (hF : F (txnRdsr c)) (hL : (1, .busTimeout) ∈ L) :
    (readStatus s).Within (boundStatus c) F L K s := by
  subst hc
  have h : (readStatus s).Within _ F L K s :=
    (callIssue_within hK rfl 1 hF hL).bind hK fun _ t _ ht _ =>
    (callWaitOr_within hK ht.cfg 2 maskTc true hL).bind hK fun _ _ _ _ _ =>
    (briClearTc_within hK 3).bind hK fun _ _ _ _ _ =>
    (briReadByte_within hK 4).bind hK fun b v _ _ _ =>
      Res.Within.ok_withSeq b (hK.leaf v.seq v.seq.txn v.seq.tmoBus v.seq.tmoDev b v.seq.pc)
  exact h.steps_le fun _ => by unfold boundStatus; omega

theorem callReadStatus_within (hc : s.cfg = c) (ph : Nat) (hF : F (txnRdsr c)) (hL : (1, .busTimeout) ∈ L) :
    (callReadStatus ph s).Within (boundStatus c) F L K s :=
  Res.Within.call hK ph _ fun _ hct _ _ _ _ => readStatus_within hK (hct.trans hc) hF hL

theorem waitNotBusyLoop_within (hF : F (txnRdsr c)) (h1 : (1, .busTimeout) ∈ L) (h2 : (2, .deviceTimeout) ∈ L) :
    ∀ (n : Nat) (s : State), s.cfg = c → (waitNotBusyLoop n s).Within (boundNotBusy c n) F L K s
  | 0, s, _ => by
    have h : (waitNotBusyLoop 0 s).Within 0 F L K s := ⟨.refl s, .of_trace_eq rfl, hK.refl _, h2⟩
    exact h.steps_le fun _ => Nat.zero_le _
  | n + 1, s, hc => by
    have hread : ((callReadStatus 1 s).recode 1).Within (boundStatus c) F L K s :=
      (callReadStatus_within hK hc 1 hF (L := [(1, .busTimeout)]) (by simp)).recode 1 (by simpa using h1)
    refine (hread.bind (m := 1 + boundNotBusy c n) hK fun b t _ ht _ => ?_).steps_le fun _ => ?_
    · split
      · refine (tick_within hK 2).bind hK fun _ u _ hu _ => ?_
        exact (waitNotBusyLoop_within hF h1 h2 n (countTmoDev u) ((hu.cfg.trans ht.cfg).trans hc)).after_withSeq hK
          (hK.leaf u.seq u.seq.txn u.seq.tmoBus _ u.seq.srSnap u.seq.pc)
      · exact (Res.Within.ok hK _).steps_le fun _ => Nat.zero_le _
    · unfold boundNotBusy
      rw [Nat.succ_mul]
      omega

theorem waitNotBusy_within (hc : s.cfg = c) (n : Word) (hF : F (txnRdsr c)) (h1 : (1, .busTimeout) ∈ L)
    (h2 : (2, .deviceTimeout) ∈ L) : (waitNotBusy n s).Within (boundNotBusy c n.toNat) F L K s :=
  (waitNotBusyLoop_within hK hF h1 h2 _ (setTmoDev n s) hc).after_withSeq hK
    (hK.leaf s.seq s.seq.txn s.seq.tmoBus n s.seq.srSnap s.seq.pc)

theorem callWaitNotBusy_within (hc : s.cfg = c) (ph : Nat) {code : Byte} (n : Word) (hF : F (txnRdsr c))
    (hL : ∀ p ∈ deviceResults code, p ∈ L) : (callWaitNotBusy ph code n s).Within (boundNotBusy c n.toNat) F L K s := by
  have hcall : ((call ph .waitNotBusy s (waitNotBusy n)).recode code).Within (boundNotBusy c n.toNat) F L K s :=
    (Res.Within.call (L := [(1, .busTimeout), (2, .deviceTimeout)]) hK ph _ fun t hct _ _ _ _ =>
      waitNotBusy_within hK (hct.trans hc) n hF (by simp) (by simp)).recode code fun p hp => hL _ (by
        rcases List.mem_cons.mp hp with rfl | hp
        · simp [deviceResults]
        · simp at hp; subst hp; simp [deviceResults])
  exact hcall.bind (m := 0) hK fun _ _ _ _ _ => .ok hK _

theorem sendCommand_within (hc : s.cfg = c) (op : Byte) (a : Option Addr24) (hF : F (commandTxn op a))
    (hL : (1, .busTimeout) ∈ L) : (sendCommand op a s).Within (boundCommand c) F L K s := by
  have h := (callIssue_within hK hc 1 hF hL).bind hK fun _ u _ hu _ =>
    (callWaitOr_within hK (hu.cfg.trans hc) 2 maskTc true hL).bind hK fun _ v _ hv _ => briClearTc_within hK 3
  exact h.steps_le fun _ => by unfold boundCommand; omega

theorem callSendCommand_within (hc : s.cfg = c) (ph : Nat) {code : Byte} (op : Byte) (a : Option Addr24)
    (hF : F (commandTxn op a)) (hL : (code, .busTimeout) ∈ L) :
    (callSendCommand ph code op a s).Within (boundCommand c) F L K s :=
  (Res.Within.call (L := [(1, .busTimeout)]) hK ph _ fun t hct _ _ _ _ =>
    sendCommand_within hK (hct.trans hc) op a hF (by simp)).recode code (by simpa using hL)

theorem latchPoll_within (hF : F (txnRdsr c)) (h2 : (2, .busTimeout) ∈ L) (h3 : (3, .writeEnableFailed) ∈ L) :
    ∀ (n : Nat) (s : State), s.cfg = c → (latchPoll n s).Within (n * (boundStatus c + 1)) F L K s
  | 0, s, _ => by
    have h : (latchPoll 0 s).Within 0 F L K s := ⟨.refl s, .of_trace_eq rfl, hK.refl _, h3⟩
    exact h.steps_le fun _ => Nat.zero_le _
  | n + 1, s, hc => by
    have hread : ((callReadStatus 2 s).recode 2).Within (boundStatus c) F L K s :=
      (callReadStatus_within hK hc 2 hF (L := [(1, .busTimeout)]) (by simp)).recode 2 (by simpa using h2)
    refine (hread.bind (m := 1 + n * (boundStatus c + 1)) hK fun b t _ ht _ => ?_).steps_le fun _ => ?_
    · split
      · exact (Res.Within.ok hK _).steps_le fun _ => Nat.zero_le _
      · refine (tick_within hK 3).bind hK fun _ u _ hu _ => ?_
        exact (latchPoll_within hF h2 h3 n (countTmoDev u) ((hu.cfg.trans ht.cfg).trans hc)).after_withSeq hK
          (hK.leaf u.seq u.seq.txn u.seq.tmoBus _ u.seq.srSnap u.seq.pc)
    · rw [Nat.succ_mul]
      omega

/-- The failures of WRITE_ENABLE (rule R232). -/
theorem writeEnable_within (hc : s.cfg = c) (hW : F (txnCmd c.opWriteEnable)) (hF : F (txnRdsr c))
    (hL : ∀ p ∈ [((1 : Byte), Cause.busTimeout), (2, .busTimeout), (3, .writeEnableFailed)], p ∈ L) :
    (writeEnable s).Within (boundEnable c) F L K s := by
  subst hc
  refine (callSendCommand_within hK rfl 1 _ none hW (hL _ (by simp))).bind hK fun _ t _ ht _ => ?_
  rw [ht.cfg]
  exact (latchPoll_within hK hF (hL _ (by simp)) (hL _ (by simp)) _ (setTmoDev s.cfg.welRetry t) ht.cfg).after_withSeq hK
    (hK.leaf t.seq t.seq.txn t.seq.tmoBus _ t.seq.srSnap t.seq.pc)

theorem callWriteEnable_within (hc : s.cfg = c) (hW : F (txnCmd c.opWriteEnable)) (hF : F (txnRdsr c))
    (hL : ∀ p ∈ enableResults 1, p ∈ L) : (callWriteEnable s).Within (boundEnable c) F L K s :=
  (Res.Within.call hK 1 _ fun t hct _ _ _ _ => writeEnable_within hK (hct.trans hc) hW hF fun _ => id).recode 1 fun p hp =>
    hL _ (by simp at hp; rcases hp with rfl | rfl | rfl <;> simp [enableResults])

theorem resetMemory_within (hc : s.cfg = c) (h1 : F (txnCmd c.opResetEnable)) (h2 : F (txnCmd c.opResetMemory))
    (hF : F (txnRdsr c)) (hL : ∀ p ∈ resetResults, p ∈ L) : (resetMemory s).Within (boundReset c) F L K s := by
  subst hc
  have h : (resetMemory s).Within (boundCommand s.cfg + (boundCommand s.cfg + boundNotBusy s.cfg s.cfg.resetWaitTicks.toNat)) F L K s := by
    refine (callSendCommand_within hK rfl 1 _ none h1 (hL _ (by simp [resetResults]))).bind hK fun _ t _ ht _ => ?_
    rw [ht.cfg]
    refine (callSendCommand_within hK ht.cfg 2 _ none h2 (hL _ (by simp [resetResults]))).bind hK fun _ u _ hu _ => ?_
    rw [hu.cfg, ht.cfg]
    exact callWaitNotBusy_within hK (hu.cfg.trans ht.cfg) 3 _ hF fun p hp => hL p (List.mem_append_right _ hp)
  exact h.steps_le fun _ => by unfold boundReset; omega

end Procedures

end Sys2Proof.Machine
end

section
/-! The bounds of the data path, of the bus operations and of the ABI, and what they say of every host operation. -/

namespace Sys2Proof.Machine

/-! ### READ -/

section DataPath

variable {c : Cfg} {F : Txn → Prop} {L : List (Byte × Cause)} {K : Seq → Seq → Prop} {s : State} (hK : Keeps K)

/-- An end whose record is that of the start. -/
theorem Res.Within.ok_of {α : Type} {t : State} (a : α) (ht : Traced s t) (htr : t.env.trace = s.env.trace)
    (hk : K s.seq t.seq) : (Res.ok a t).Within 0 F L K s := ⟨ht, .of_trace_eq htr, hk⟩

include hK

theorem readOneByte_within (hidx : ∀ q n, K q { q with idx := n }) : (readOneByte s).Within 1 F L K s :=
  (briReadByte_within hK 5).bind (m := 0) hK fun _ t _ _ _ =>
    Res.Within.ok_of () (.of_env_eq rfl rfl rfl rfl) rfl (hidx t.seq _)

theorem readBytes_within (hidx : ∀ q n, K q { q with idx := n }) (h2 : (2, .busTimeout) ∈ L) :
    ∀ (n : Nat) (s : State), s.cfg = c → (readBytes n s).Within (n * (2 * c.busWaitTicks.toNat + 1)) F L K s
  | 0, s, _ => (Res.Within.ok hK ()).steps_le fun _ => Nat.zero_le _
  | n + 1, s, hc => by
    have h : (readBytes (n + 1) s).Within _ F L K s :=
      (callWaitOr_within hK hc 4 maskFtTc true h2).bind hK fun _ _ _ ht _ =>
      (readOneByte_within hK hidx).bind hK fun _ u _ hu _ =>
      readBytes_within hidx h2 n u ((hu.cfg.trans ht.cfg).trans hc)
    exact h.steps_le fun _ => by rw [Nat.succ_mul n]; omega

theorem read_within (hc : s.cfg = c) (hidx : ∀ q n, K q { q with idx := n }) (addr len : Word)
    (hF : len ≠ 0 → F (txnQread c (trunc24 addr) len))
    (hL : ∀ p ∈ [((1 : Byte), Cause.busTimeout), (2, .busTimeout), (3, .busTimeout)], p ∈ L) :
    (read addr len s).Within (stepBound c (.read addr len)) F L K s := by
  subst hc
  unfold read
  split
  · exact (Res.Within.ok hK ()).steps_le fun _ => Nat.zero_le _
  · next hlen =>
    have h := (callIssue_within (s := s) hK rfl 1 (hF hlen) (hL (1, .busTimeout) (by simp))).bind hK
      (k := fun _ t => (readBytes len.toNat (setIdx 0 t)).bind fun _ u =>
        ((callWait 6 maskTc true u).orTimeout 3).bind fun _ v => briClearTc 7 v) fun _ t _ ht _ =>
      (((readBytes_within hK hidx (hL (2, .busTimeout) (by simp)) len.toNat (setIdx 0 t) ht.cfg).after_withSeq hK (hidx t.seq 0)).bind hK
        fun _ u _ hu _ =>
      (callWaitOr_within hK (hu.cfg.trans ht.cfg) 6 maskTc true (hL (3, .busTimeout) (by simp))).bind hK fun _ _ _ _ _ =>
      briClearTc_within hK 7)
    exact h.steps_le fun _ => by simp only [stepBound]; omega

/-! ### WRITE -/

/-- Each byte is written after space was seen, in a write frame. -/
theorem writeBytes_within (hidx : ∀ q n, K q { q with idx := n }) (h3 : (3, .busTimeout) ∈ L) :
    ∀ (n : Nat) (s : State), s.cfg = c → (s.env.model = .ref → s.bri.cfg.direction = .write) →
      (writeBytes n s).Within (n * (2 * c.busWaitTicks.toNat + 1)) F L K s
  | 0, s, _, _ => (Res.Within.ok hK ()).steps_le fun _ => Nat.zero_le _
  | n + 1, s, hc, hd => by
    have h : (writeBytes (n + 1) s).Within (2 * c.busWaitTicks.toNat + ((1 + 0) + n * (2 * c.busWaitTicks.toNat + 1)))
        F L K s := by
      refine (callWaitOr_within hK hc 3 maskFt true h3).bind hK fun _ t hwait ht _ => ?_
      have hmet := Res.orTimeout_eq_ok.mp hwait
      have hroom : t.cfg.wf = true → t.env.model = .ref → t.bri.fifo.length < t.cfg.fifoDepth := fun hw hm => by
        have hms : s.env.model = .ref := ht.model.symm.trans hm
        rw [ht.cfg] at hw ⊢
        exact callWait_room hw hms (hd hms) hmet
      have hone : (writeOneByte t).Within (1 + 0) F L K t :=
        (briWriteByte_within hK 4 _ hroom).bind hK fun _ u _ _ _ => Res.Within.ok_withSeq () (hidx u.seq _)
      refine hone.bind hK fun _ u hu hut _ => writeBytes_within hidx h3 n u ((hut.cfg.trans ht.cfg).trans hc) fun hm => ?_
      obtain ⟨_, v, hv, hk⟩ := Res.bind_eq_ok.mp hu
      cases hk
      have hms : s.env.model = .ref := (ht.model.symm.trans hut.model.symm).trans hm
      have hdir : v.bri.cfg.direction = .write := by rw [briWriteByte_ok hv, callWait_direction hms hmet, hd hms]
      exact hdir
    exact h.steps_le fun _ => by rw [Nat.succ_mul n]; omega

end DataPath

/-- Lines 1 to 7 of a chunk of WRITE, before the loop registers move on (rule R151). -/
def sendChunk (s : State) : Res Unit :=
  (callWriteEnable s).bind fun _ s =>
  (callIssue 2 2 (txnQpp s.cfg (trunc24 s.seq.curAddr) s.seq.curSize) s).bind fun _ s =>
  (writeBytes s.seq.curSize.toNat (setIdx 0 s)).bind fun _ s =>
  ((callWait 5 maskTc true s).orTimeout 4).bind fun _ s =>
  (briClearTc 6 s).bind fun _ s => callWaitNotBusy 7 5 s.cfg.programWaitTicks s

theorem writeChunk_eq (s : State) : writeChunk s = (sendChunk s).bind fun _ s => .ok () (nextChunkRegs s) := by
  simp only [writeChunk, sendChunk, Res.bind_assoc]

/-- The steps of a chunk but for its bytes (rule R272). -/
def chunkBound (c : Cfg) : Nat :=
  boundEnable c + (2 * c.busWaitTicks.toNat + 2) + (2 * c.busWaitTicks.toNat + 1) + boundNotBusy c c.programWaitTicks.toNat

theorem SameRange.idx (q : Seq) (n : Word) : SameRange q { q with idx := n } := ⟨rfl, rfl, rfl, rfl, rfl, rfl, rfl⟩

section Write

variable {c : Cfg} {F : Txn → Prop} {L : List (Byte × Cause)} {s : State}

theorem sendChunk_within (hc : s.cfg = c) (hW : F (txnCmd c.opWriteEnable)) (hR : F (txnRdsr c))
    (hQ : ∀ a, F (txnQpp c a s.seq.curSize)) (hL : ∀ p ∈ writeResults, p ∈ L) :
    (sendChunk s).Within (chunkBound c + s.seq.curSize.toNat * (2 * c.busWaitTicks.toNat + 1)) F L SameRange s := by
  subst hc
  have hK := SameRange.keeps
  have h : (sendChunk s).Within (boundEnable s.cfg + ((2 * s.cfg.busWaitTicks.toNat + 2)
      + (s.seq.curSize.toNat * (2 * s.cfg.busWaitTicks.toNat + 1) + (2 * s.cfg.busWaitTicks.toNat
      + (1 + boundNotBusy s.cfg s.cfg.programWaitTicks.toNat))))) F L SameRange s := by
    refine (callWriteEnable_within hK rfl hW hR fun p hp => hL p (List.mem_append_left _ (List.mem_append_left _ hp))).bind hK
      fun _ t _ ht hkt => ?_
    rw [ht.cfg, hkt.curSize]
    refine (callIssue_within hK ht.cfg 2 (hQ _) (hL _ (by simp [writeResults]))).bind hK fun _ u hissue hu hku => ?_
    rw [hku.curSize, hkt.curSize]
    have hdir : (setIdx 0 u).env.model = .ref → (setIdx 0 u).bri.cfg.direction = .write := fun _ => by
      rw [setIdx_bri, callIssue_ok hissue]
      rfl
    refine ((writeBytes_within hK SameRange.idx (hL _ (by simp [writeResults])) _ (setIdx 0 u) (hu.cfg.trans ht.cfg)
      hdir).after_withSeq hK (SameRange.idx u.seq 0)).bind hK fun _ v _ hv _ => ?_
    have hvc : v.cfg = s.cfg := (hv.cfg.trans hu.cfg).trans ht.cfg
    refine (callWaitOr_within hK hvc 5 maskTc true (hL _ (by simp [writeResults]))).bind hK fun _ w _ hw _ => ?_
    refine (briClearTc_within hK 6).bind hK fun _ x _ hx _ => ?_
    have hxc : x.cfg = s.cfg := (hx.cfg.trans hw.cfg).trans hvc
    rw [hxc]
    exact callWaitNotBusy_within hK hxc 7 _ hR fun p hp => hL p (List.mem_append_right _ hp)
  exact h.steps_le fun _ => by unfold chunkBound; omega

theorem ChunkAt.of_sameRange {a n j : Nat} {q q' : Seq} (h : ChunkAt c a n j q) (k : SameRange q q') :
    ChunkAt c a n j q' :=
  ⟨k.curAddr.trans h.curAddr, k.curSize.trans h.curSize, k.endAddr.trans h.endAddr, k.bufOff.trans h.bufOff⟩

/-- The steps of the chunks from the `j`-th on: the fixed part of each, and the bytes left. -/
def boundChunksFrom (c : Cfg) (a n j : Nat) : Nat :=
  (chunkCount c.pageSize a n - j) * chunkBound c
    + (a + n - chunkStart c.pageSize a j) * (2 * c.busWaitTicks.toNat + 1)

theorem writeChunks_within {a n : Nat} (hn : 0 < n) (hn' : n < 2 ^ 32) (hW : F (txnCmd c.opWriteEnable))
    (hR : F (txnRdsr c)) (hQ : ∀ x m, (c.wf = true → m ≠ 0) → F (txnQpp c x m)) (hL : ∀ p ∈ writeResults, p ∈ L) :
    ∀ (k j : Nat) (s : State), s.cfg = c →
      (c.wf = true → ChunkAt c a n j s.seq ∧ j < chunkCount c.pageSize a n ∧ chunkCount c.pageSize a n - j ≤ k) →
      (writeChunks k s).Within (boundChunksFrom c a n j) F L SameInited s
  | 0, j, s, hc, hat => fun hw => by
    obtain ⟨_, hj, hk⟩ := hat (hc ▸ hw)
    omega
  | k + 1, j, s, hc, hat => by
    have hK := SameInited.keeps
    have hsize : c.wf = true → s.seq.curSize ≠ 0 ∧ s.seq.curSize.toNat = chunkSize c.pageSize a n j := fun hw => by
      obtain ⟨hat, hj, _⟩ := hat hw
      have hp := Cfg.wf_pageSize_pos hw
      have hnat := hat.curSize_toNat hp hn'
      refine ⟨fun h0 => ?_, hnat⟩
      have := chunkSize_pos hp hn hj
      rw [h0] at hnat
      simp at hnat
      omega
    have hsend := sendChunk_within (F := F) hc hW hR (fun x => hQ x _ fun hw => (hsize hw).1) hL
    have hchunk : (writeChunk s).Within (chunkBound c + s.seq.curSize.toNat * (2 * c.busWaitTicks.toNat + 1) + 0) F L
        SameInited s := by
      rw [writeChunk_eq]
      exact (hsend.mono (fun _ => le_rfl) (fun _ => id) (fun _ => id) fun _ _ => SameRange.sameInited).bind (m := 0) hK
        fun _ t _ _ _ => Res.Within.ok_withSeq () rfl
    have h := hchunk.bind hK (k := fun _ t => if t.seq.curAddr < t.seq.endAddr then writeChunks k t else .ok () t)
      (m := (chunkCount c.pageSize a n - (j + 1)) * chunkBound c
        + (a + n - chunkEnd c.pageSize a n j) * (2 * c.busWaitTicks.toNat + 1)) fun _ t ht _ _ => by
        rw [writeChunk_eq] at ht
        obtain ⟨_, u, hu, hk⟩ := Res.bind_eq_ok.mp ht
        cases hk
        obtain ⟨htu, hru⟩ := hsend.keeps hu
        have huc : u.cfg = c := htu.cfg.trans hc
        split
        · next hlt =>
          have hnext : c.wf = true → j + 1 < chunkCount c.pageSize a n := fun hw => by
            obtain ⟨hat, hj, _⟩ := hat hw
            exact succ_lt_chunkCount_of_lt (hat.of_sameRange hru) (Cfg.wf_pageSize_pos hw) hn hj hlt
          refine (writeChunks_within (a := a) hn hn' hW hR hQ hL k (j + 1) (nextChunkRegs u) huc fun hw => ?_).steps_le fun hw => ?_
          · obtain ⟨hat, hj, hfuel⟩ := hat hw
            exact ⟨chunkAt_succ huc (hat.of_sameRange hru) (Cfg.wf_pageSize_pos hw) hn hn' (hnext hw), hnext hw, by omega⟩
          · have hw' : c.wf = true := huc ▸ hw
            unfold boundChunksFrom
            rw [chunkEnd_eq_chunkStart_succ hn (hnext hw')]
        · exact (Res.Within.ok hK ()).steps_le fun _ => Nat.zero_le _
    refine h.steps_le fun hw => ?_
    rw [hc] at hw
    obtain ⟨hat, hj, hk⟩ := hat hw
    have hp := Cfg.wf_pageSize_pos hw
    have hsum := chunkStart_add_chunkSize hp hn hj
    have hend := chunkEnd_le c.pageSize a n j
    have hbytes : a + n - chunkStart c.pageSize a j = chunkSize c.pageSize a n j + (a + n - chunkEnd c.pageSize a n j) := by
      omega
    have hcount : chunkCount c.pageSize a n - j = (chunkCount c.pageSize a n - (j + 1)) + 1 := by omega
    unfold boundChunksFrom
    rw [(hsize hw).2, hbytes, hcount, Nat.succ_mul (chunkCount c.pageSize a n - (j + 1)),
      Nat.add_mul (chunkSize c.pageSize a n j)]
    omega

theorem write_within (hc : s.cfg = c) (addr len : Word) (hW : F (txnCmd c.opWriteEnable)) (hR : F (txnRdsr c))
    (hQ : ∀ x m, (c.wf = true → m ≠ 0) → F (txnQpp c x m)) (hL : ∀ p ∈ writeResults, p ∈ L) :
    (write addr len s).Within (boundWrite c addr.toNat len.toNat) F L SameInited s := by
  subst hc
  unfold write
  split
  · exact (Res.Within.ok SameInited.keeps ()).steps_le fun _ => Nat.zero_le _
  · next hlen =>
    have hn : 0 < len.toNat := Nat.pos_of_ne_zero fun h0 => hlen (BitVec.eq_of_toNat_eq h0)
    have h := writeChunks_within (F := F) (L := L) hn len.isLt hW hR hQ hL len.toNat 0
      (setProgramLoop addr (firstChunk s.cfg addr len) (addr + len) 0 s) rfl fun hw =>
        ⟨chunkAt_zero (Cfg.wf_pageSize_pos hw) addr len s, chunkCount_pos _ _ _,
          chunkCount_le (Cfg.wf_pageSize_pos hw) hn _⟩
    refine (h.after_withSeq SameInited.keeps rfl).steps_le fun _ => ?_
    unfold boundChunksFrom boundWrite chunkBound
    rw [if_neg hn.ne', chunkStart_zero, Nat.add_sub_cancel_left, Nat.sub_zero]

end Write

/-! ### ERASE, CHIP_ERASE, INIT_BUS -/

section Erase

variable {c : Cfg} {F : Txn → Prop} {L : List (Byte × Cause)} {K : Seq → Seq → Prop} {s : State} (hK : Keeps K)
include hK

theorem chipErase_within (hc : s.cfg = c) (hW : F (txnCmd c.opWriteEnable)) (hR : F (txnRdsr c))
    (hE : F (txnCmd c.opBulkErase)) (hL : ∀ p ∈ chipResults, p ∈ L) : (chipErase s).Within (boundChip c) F L K s := by
  subst hc
  have h : (chipErase s).Within (boundEnable s.cfg + (boundCommand s.cfg
      + boundNotBusy s.cfg (ticksOfMs s.cfg s.cfg.maxWaitBulkMs).toNat)) F L K s := by
    refine (callWriteEnable_within hK rfl hW hR fun p hp => hL p (List.mem_append_left _ (List.mem_append_left _ hp))).bind hK
      fun _ t _ ht _ => ?_
    rw [ht.cfg]
    refine (callSendCommand_within hK ht.cfg 2 _ none hE (hL _ (by simp [chipResults]))).bind hK fun _ u _ hu _ => ?_
    rw [hu.cfg, ht.cfg]
    exact callWaitNotBusy_within hK (hu.cfg.trans ht.cfg) 3 _ hR fun p hp => hL p (List.mem_append_right _ hp)
  exact h.steps_le fun _ => by unfold boundChip; omega

theorem eraseBlock_within (hc : s.cfg = c) (addr : Word) (op : Byte) (ms : Nat) (hW : F (txnCmd c.opWriteEnable))
    (hR : F (txnRdsr c)) (hE : ∀ a, F (txnCmda op a)) (hL : ∀ p ∈ eraseResults, p ∈ L) :
    (eraseBlock addr op ms s).Within (boundErase c (ticksOfMs c ms).toNat) F L K s := by
  subst hc
  have h : (eraseBlock addr op ms s).Within (boundEnable s.cfg + (boundCommand s.cfg
      + (boundNotBusy s.cfg (ticksOfMs s.cfg ms).toNat + (2 * s.cfg.busWaitTicks.toNat + 1)))) F L K s := by
    refine (callWriteEnable_within hK rfl hW hR fun p hp => hL p (List.mem_append_left _ (List.mem_append_left _
      (List.mem_append_left _ hp)))).bind hK fun _ t _ ht _ => ?_
    refine (callSendCommand_within hK ht.cfg 2 op _ (hE _) (hL _ (by simp [eraseResults, chipResults]))).bind hK
      fun _ u _ hu _ => ?_
    have huc : u.cfg = s.cfg := hu.cfg.trans ht.cfg
    rw [huc]
    refine (callWaitNotBusy_within hK huc 3 _ hR fun p hp => hL p (List.mem_append_left _
      (List.mem_append_right _ hp))).bind hK fun _ v _ hv _ => ?_
    exact (callWaitOr_within hK (hv.cfg.trans huc) 4 maskBusy false (hL _ (by simp [eraseResults]))).bind hK
      fun _ _ _ _ _ => briClearAll_within hK 5
  exact h.steps_le fun _ => by unfold boundErase; omega

/-- The failures of an erase of a variant (rule R232). -/
def eraseStages : BlockSize → List (Byte × Cause)
  | .all => chipResults
  | .b4K | .b32K | .b64K => eraseResults

/-- The frames of an erase: its own opcode besides those of write enable and status read. -/
theorem erase_within (hc : s.cfg = c) (addr : Word) (v : BlockSize) (hW : F (txnCmd c.opWriteEnable))
    (hR : F (txnRdsr c)) (hE : ∀ a, F (eraseTxn c v a)) (hL : ∀ p ∈ eraseStages v, p ∈ L) :
    (erase addr v s).Within (stepBound c (.erase addr v)) F L K s := by
  subst hc
  cases v with
  | b4K => exact eraseBlock_within hK rfl addr _ _ hW hR hE hL
  | b32K => exact eraseBlock_within hK rfl addr _ _ hW hR hE hL
  | b64K => exact eraseBlock_within hK rfl addr _ _ hW hR hE hL
  | all => exact Res.Within.call hK 0 _ fun t hct _ _ _ _ =>
      chipErase_within hK hct hW hR (hE 0) hL

/-- The steps of INIT_BUS before it sets `INITED` (rule R171). -/
theorem bringUp_within (hc : s.cfg = c) (h1 : F (txnCmd c.opResetEnable)) (h2 : F (txnCmd c.opResetMemory))
    (hR : F (txnRdsr c)) (hL : ∀ p ∈ resetResults, p ∈ L) :
    ((briInit 1 (initFields c) s).bind fun _ s => (briEnable 2 s).bind fun _ s => call 3 .resetMemory s resetMemory).Within
      (boundReset c + 2) F L K s := by
  have h := (briInit_within (F := F) (L := L) hK 1 (initFields c) (s := s)).bind hK
    (k := fun _ s => (briEnable 2 s).bind fun _ s => call 3 .resetMemory s resetMemory) fun _ t _ ht _ =>
    (briEnable_within hK 2).bind hK fun _ u _ hu _ =>
    Res.Within.call hK 3 _ fun v hv _ _ _ _ =>
      resetMemory_within hK (hv.trans ((hu.cfg.trans ht.cfg).trans hc)) h1 h2 hR hL
  exact h.steps_le fun _ => by omega

end Erase

/-- Nothing is asked of the registers. -/
def AnySeq (_ _ : Seq) : Prop := True

theorem AnySeq.keeps : Keeps AnySeq := ⟨fun _ => trivial, fun _ _ _ _ _ => trivial, fun _ _ _ _ _ _ => trivial⟩

/-- INIT_BUS sets `INITED` exactly if it succeeds (rules R26, R171). -/
theorem initBus_within {c : Cfg} {F : Txn → Prop} {L : List (Byte × Cause)} {s : State} (hc : s.cfg = c)
    (h1 : F (txnCmd c.opResetEnable)) (h2 : F (txnCmd c.opResetMemory)) (hR : F (txnRdsr c))
    (hL : ∀ p ∈ resetResults, p ∈ L) :
    (initBus s).Within (boundReset c + 2) F L AnySeq s
      ∧ (∀ t, initBus s = .ok () t → t.seq.inited = true)
      ∧ ∀ d e t, initBus s = .fail d e t → t.seq.inited = false := by
  subst hc
  have hup := bringUp_within (c := s.cfg) (F := F) (L := L) (s := setInited false s) SameInited.keeps rfl h1 h2 hR hL
  have heq : initBus s = ((briInit 1 (initFields s.cfg) (setInited false s)).bind fun _ s =>
      (briEnable 2 s).bind fun _ s => call 3 .resetMemory s resetMemory).bind fun _ s => .ok () (setInited true s) := by
    simp only [initBus, Res.bind_assoc]
  rw [heq]
  refine ⟨?_, fun t ht => ?_, fun d e t ht => ?_⟩
  · exact ((hup.mono (fun _ => le_rfl) (fun _ => id) (fun _ => id) fun _ _ _ => trivial).bind (m := 0) AnySeq.keeps
      fun _ t _ _ _ => Res.Within.ok_withSeq () trivial).after_withSeq AnySeq.keeps trivial
  · obtain ⟨_, u, _, hk⟩ := Res.bind_eq_ok.mp ht
    cases hk
    rfl
  · cases hr : (briInit 1 (initFields s.cfg) (setInited false s)).bind fun _ s =>
      (briEnable 2 s).bind fun _ s => call 3 .resetMemory s resetMemory with
    | fail c' e' u =>
      rw [hr] at ht hup
      cases ht
      exact hup.2.2.1
    | ok a u => rw [hr] at ht; cases ht
    | reset u => rw [hr] at ht; cases ht
    | fault f => rw [hr] at ht; cases ht
    | refused x => rw [hr] at ht; cases ht

/-! ### ABI_ERASE_RANGE -/

/-- The erase range registers at block `j` of the range. -/
structure BlockAt (c : Cfg) (first last : Word) (j : Nat) (q : Seq) : Prop where
  erAddr : q.erAddr.toNat = rangeStart c first + j * c.subsectorSize
  erEnd : q.erEnd.toNat = rangeEnd c last

theorem blockAt_zero {c : Cfg} (hw : c.wf = true) (first last : Word) (s : State) :
    BlockAt c first last 0 (setErAddr (abiEraseStart c first) (setErEnd (abiMask c last) s)).seq where
  erAddr := by rw [Nat.zero_mul, Nat.add_zero]; exact abiEraseStart_toNat hw first
  erEnd := rfl

/-- The loop goes on exactly while the block is in the range. -/
theorem BlockAt.lt_iff {c : Cfg} {first last : Word} {j : Nat} {q : Seq} (h : BlockAt c first last j q)
    (hw : c.wf = true) : q.erEnd < q.erAddr ↔ ¬ j < blockCount c first last := by
  rw [lt_blockCount_iff (Cfg.wf_subsectorSize_pos hw), BitVec.lt_def, h.erAddr, h.erEnd, not_le]

/-- The address of the next block does not overflow (rule R9). -/
theorem BlockAt.succ {c : Cfg} {first last : Word} {j : Nat} {q : Seq} (h : BlockAt c first last j q) (hw : c.wf = true)
    (hj : j < blockCount c first last) {n : Word} (hn : n = q.erAddr + BitVec.ofNat 32 c.subsectorSize) :
    BlockAt c first last (j + 1) { q with erAddr := n } where
  erAddr := by
    have hle := (lt_blockCount_iff (Cfg.wf_subsectorSize_pos hw) j).mp hj
    have hend := rangeEnd_le c last
    have hmask := Cfg.wf_abiAddrMask hw
    have haddr := h.erAddr
    rw [hn, BitVec.toNat_add, BitVec.toNat_ofNat, haddr, Nat.mod_eq_of_lt (by omega : c.subsectorSize < 2 ^ 32),
      Nat.mod_eq_of_lt (by omega), Nat.succ_mul, Nat.add_assoc]
  erEnd := h.erEnd

section EraseRange

variable {c : Cfg} {F : Txn → Prop} {L : List (Byte × Cause)} {first last : Word}

theorem eraseBlocks_within (hW : F (txnCmd c.opWriteEnable)) (hR : F (txnRdsr c)) (hE : ∀ a, F (txnCmda c.opErase4K a))
    (hL : ∀ p ∈ eraseResults, p ∈ L) : ∀ (k j : Nat) (s : State), s.cfg = c →
    (c.wf = true → BlockAt c first last j s.seq ∧ s.seq.erEnd.toNat + 1 - s.seq.erAddr.toNat ≤ k) →
    (eraseBlocks k s).Within ((blockCount c first last - j) * boundErase c (ticksOfMs c c.maxWaitSubsectorMs).toNat) F L
      SameInited s
  | 0, j, s, hc, hat => by
    unfold eraseBlocks
    split
    · exact (Res.Within.ok SameInited.keeps ()).steps_le fun _ => Nat.zero_le _
    · next hlt =>
      intro hw
      obtain ⟨_, hk⟩ := hat (hc ▸ hw)
      rw [BitVec.lt_def] at hlt
      omega
  | k + 1, j, s, hc, hat => by
    unfold eraseBlocks
    split
    · exact (Res.Within.ok SameInited.keeps ()).steps_le fun _ => Nat.zero_le _
    · next hlt =>
      have hK := SameInited.keeps
      have hcall : (call 1 .erase s (erase s.seq.erAddr .b4K)).Within (stepBound c (.erase s.seq.erAddr .b4K)) F L SameRange s :=
        Res.Within.call SameRange.keeps 1 _ fun t hct _ _ _ _ =>
          erase_within SameRange.keeps (hct.trans hc) _ .b4K hW hR hE hL
      have h := (hcall.mono (fun _ => le_rfl) (fun _ => id) (fun _ => id) fun _ _ => SameRange.sameInited).bind hK
        (k := fun _ t => eraseBlocks k (setErAddr (t.seq.erAddr + BitVec.ofNat 32 t.cfg.subsectorSize) t))
        (m := (blockCount c first last - (j + 1)) * boundErase c (ticksOfMs c c.maxWaitSubsectorMs).toNat)
        fun _ t ht _ _ => by
          obtain ⟨htt, hrt⟩ := hcall.keeps ht
          have htc : t.cfg = c := htt.cfg.trans hc
          refine (eraseBlocks_within hW hR hE hL k (j + 1)
            (setErAddr (t.seq.erAddr + BitVec.ofNat 32 t.cfg.subsectorSize) t) htc fun hw => ?_).after_withSeq hK rfl
          obtain ⟨hat, hk⟩ := hat hw
          have hj : j < blockCount c first last := by
            rw [hat.lt_iff hw, not_not] at hlt
            exact hlt
          have hat' : BlockAt c first last j t.seq := ⟨hrt.erAddr ▸ hat.erAddr, hrt.erEnd ▸ hat.erEnd⟩
          have hnext := hat'.succ hw hj (n := t.seq.erAddr + BitVec.ofNat 32 t.cfg.subsectorSize) (by rw [htc])
          refine ⟨hnext, ?_⟩
          have h1 := hnext.erAddr
          have h2 := hat.erAddr
          have h3 := hrt.erEnd
          have hz := Cfg.wf_subsectorSize_pos hw
          rw [Nat.succ_mul] at h1
          simp only [setErAddr_seq, h3] at h1 ⊢
          omega
      refine h.steps_le fun hw => ?_
      rw [hc] at hw
      obtain ⟨hat, _⟩ := hat hw
      have hj : j < blockCount c first last := by
        rw [hat.lt_iff hw, not_not] at hlt
        exact hlt
      have hcount : blockCount c first last - j = (blockCount c first last - (j + 1)) + 1 := by omega
      rw [hcount, Nat.succ_mul, Nat.add_comm]
      exact le_rfl

theorem abiEraseRange_within {s : State} (hc : s.cfg = c) (hW : F (txnCmd c.opWriteEnable)) (hR : F (txnRdsr c))
    (hE : ∀ a, F (txnCmda c.opErase4K a)) (hL : ∀ p ∈ eraseResults, p ∈ L) :
    (abiEraseRange first last s).Within (stepBound c (.abiEraseRange first last)) F L SameInited s := by
  subst hc
  have h := eraseBlocks_within (F := F) (L := L) (first := first) (last := last) hW hR hE hL _ 0
    (setErAddr (abiEraseStart s.cfg first) (setErEnd (abiMask s.cfg last) s)) rfl fun hw =>
      ⟨blockAt_zero hw first last s, le_rfl⟩
  exact (h.after_withSeq SameInited.keeps (s := setErEnd (abiMask s.cfg last) s) rfl).after_withSeq SameInited.keeps rfl

end EraseRange

end Sys2Proof.Machine
end

section
/-! What every host operation comes to, in every environment: it completes with a listed result within its bound, or the
host's reset ends it. -/

namespace Sys2Proof.Machine

/-! ### The end of an operation (rules R235, R236) -/

/-- The operation completed: within its steps and frames, ready again, with success or a listed failure. -/
structure Completed (n : Nat) (F : Txn → Prop) (L : List (Byte × Cause)) (s t : State) : Prop where
  traced : Traced s t
  small : Small n F s t
  done : t.seq.done = true
  rdy : t.seq.rdy = true
  pc : t.seq.pc = []
  result : (t.seq.resCode = 0 ∧ t.seq.resCause = 0)
    ∨ ∃ p ∈ L, t.seq.resCode = p.1 ∧ t.seq.resCause = p.2.code ∧ t.seq.resValue = 0

/-- What an operation comes to: a completion with registers as `J` says, or a reset of SEQ; a stop only where
`Res.Within` allows one. -/
def Finishes (n : Nat) (F : Txn → Prop) (L : List (Byte × Cause)) (J : Seq → Seq → Prop) (s : State)
    (o : Host.Outcome State Fault Refusal) : Prop :=
  match o with
  | .next t => (Completed n F L s t ∧ J s.seq t.seq) ∨ (Interrupted s t ∧ Small n F s t)
  | .fault _ => s.cfg.wf = true → ¬ Undisturbed s
  | .refused x => s.cfg.wf = true → x ≠ .controllerBusy ∧ x ≠ .fifoFull ∧ ¬ Undisturbed s

section

variable {α : Type} {n : Nat} {F : Txn → Prop} {L M : List (Byte × Cause)} {K J : Seq → Seq → Prop} {s : State}

theorem cleanup_within (hK : Keeps K) : (cleanup s).Within 1 F L K s :=
  Res.Within.call hK 0 _ fun _ _ _ _ _ _ => briClearAll_within hK 1

/-- The completing step is no step on the interface. -/
theorem complete_traced (code : Byte) (cause : Cause) (value : DWord) (t : State) : Traced t (complete code cause value t) :=
  .withSeq t _

theorem finish_finishes {r : Res α} (value : α → DWord) (code : Byte → Byte) (h : r.Within n F M K s)
    (hL : ∀ p ∈ M, (code p.1, p.2) ∈ L)
    (hok : ∀ a t, r = .ok a t → K s.seq t.seq → J s.seq (complete 0 .none (value a) t).seq)
    (hfail : ∀ d e t u, r = .fail d e t → K s.seq t.seq → u.seq.inited = t.seq.inited →
      (code d, e) ∈ L → J s.seq (complete (code d) e 0 u).seq) :
    Finishes (n + 1) F L J s (finish value code r) := by
  have hle : n ≤ n + 1 := Nat.le_succ n
  cases r with
  | ok a t =>
    obtain ⟨h1, h2, h3⟩ := h
    refine .inl ⟨⟨h1.trans (complete_traced _ _ _ t), ?_, rfl, rfl, rfl, .inl ⟨rfl, rfl⟩⟩, hok a t rfl h3⟩
    exact (show Small n F s (complete 0 .none (value a) t) from ⟨h2.steps, h2.frames⟩).mono (fun _ => hle) fun _ => id
  | fail d e t =>
    obtain ⟨h1, h2, h3, h4⟩ := h
    have hc := cleanup_within (F := F) (L := []) (s := t) SameInited.keeps
    simp only [finish]
    cases hr : cleanup t with
    | ok x u =>
      rw [hr] at hc
      obtain ⟨k1, k2, k3⟩ := hc
      have hsmall := h2.add h1 k1.trace k2
      exact .inl ⟨⟨(h1.trans k1).trans (complete_traced _ _ _ u), ⟨hsmall.steps, hsmall.frames⟩, rfl, rfl, rfl,
        .inr ⟨(code d, e), hL _ h4, rfl, rfl, rfl⟩⟩, hfail d e t u rfl h3 k3 (hL _ h4)⟩
    | fail d' e' u =>
      rw [hr] at hc
      exact absurd hc.2.2.2 List.not_mem_nil
    | reset u =>
      rw [hr] at hc
      exact .inr ⟨h1.interrupted hc.1, h2.add h1 hc.1.trace hc.2⟩
    | fault f =>
      rw [hr] at hc
      exact fun hw hu => hc (h1.cfg ▸ hw) (h1.undisturbed hu)
    | refused x =>
      rw [hr] at hc
      intro hw
      obtain ⟨k1, k2, k3⟩ := hc (h1.cfg ▸ hw)
      exact ⟨k1, k2, fun hu => k3 (h1.undisturbed hu)⟩
  | reset t => exact .inr ⟨h.1, h.2.mono (fun _ => hle) fun _ => id⟩
  | fault f => exact h
  | refused x => exact h

/-- An operation that keeps `INITED`. -/
theorem finish_keeps {r : Res α} (value : α → DWord) (code : Byte → Byte) (h : r.Within n F M SameInited s)
    (hL : ∀ p ∈ M, (code p.1, p.2) ∈ L) : Finishes (n + 1) F L SameInited s (finish value code r) :=
  finish_finishes value code h hL (fun _ _ _ hk => hk) fun _ _ _ _ _ hk hu _ => hu.trans hk

theorem Finishes.gated {run : State → Host.Outcome State Fault Refusal} (h : Finishes (n + 1) F L SameInited s (run s))
    (hL : (0xFE, .notInitialised) ∈ L) : Finishes (n + 1) F L SameInited s (gated s run) := by
  unfold Machine.gated
  split
  · exact h
  · exact .inl ⟨⟨.withSeq s _, (Small.of_trace_eq (s := s) (t := refuseCommand 0xFE .notInitialised s) rfl).mono (fun _ => Nat.zero_le _) fun _ => id, rfl, rfl, rfl,
      .inr ⟨_, hL, rfl, rfl, rfl⟩⟩, rfl⟩

end

/-! ### Every host operation -/

/-- What an operation makes of `INITED` (rule R26). -/
def initedAfter : Instr → Seq → Seq → Prop
  | .initBus | .abiInitialize => fun _ q => q.inited = decide (q.resCode = 0)
  | .deinitBus => fun _ q => q.inited = false
  | _ => SameInited

/-- The frames an operation may issue: its own opcodes, and, under well-formed parameters, well-formed shapes (rules R92,
R94). -/
def ownFrame (c : Cfg) (i : Instr) (x : Txn) : Prop := x.opcode ∈ frameOpcodes c i ∧ (c.wf = true → x.wf = true)

theorem txnRdsr_wf (c : Cfg) : (txnRdsr c).wf = true := rfl
theorem txnCmd_wf (op : Byte) : (txnCmd op).wf = true := rfl

theorem txnQread_wf (c : Cfg) (a : Addr24) {n : Word} (h : n ≠ 0) : (txnQread c a n).wf = true := by
  have hn : (n == 0) = false := by simpa using h
  simp only [Txn.wf, txnQread, hn]
  rfl

theorem txnQpp_wf {c : Cfg} (hc : c.wf = true) (a : Addr24) {n : Word} (h : n ≠ 0) : (txnQpp c a n).wf = true := by
  have hn : (n == 0) = false := by simpa using h
  have hl : (c.progAddrLines == .absent) = false := by simpa using Cfg.wf_progAddrLines hc
  simp only [Txn.wf, txnQpp, hn, hl]
  rfl

theorem eraseTxn_own (c : Cfg) (addr : Word) (v : BlockSize) (a : Addr24) : ownFrame c (.erase addr v) (eraseTxn c v a) := by
  cases v <;> exact ⟨by simp [eraseTxn, variantOp, frameOpcodes, txnCmda, txnCmd], fun _ => rfl⟩

theorem own_txnRdsr {c : Cfg} {i : Instr} (h : c.opReadStatus ∈ frameOpcodes c i) : ownFrame c i (txnRdsr c) :=
  ⟨h, fun _ => txnRdsr_wf c⟩

theorem own_txnCmd {c : Cfg} {i : Instr} {op : Byte} (h : op ∈ frameOpcodes c i) : ownFrame c i (txnCmd op) :=
  ⟨h, fun _ => txnCmd_wf op⟩

theorem own_txnQpp {c : Cfg} {i : Instr} (h : c.opQuadProgram ∈ frameOpcodes c i) (a : Addr24) (n : Word)
    (hn : c.wf = true → n ≠ 0) : ownFrame c i (txnQpp c a n) := ⟨h, fun hw => txnQpp_wf hw a (hn hw)⟩

/-- A gated core operation: its body's failures, and the refusal of rule R26. -/
theorem core_finishes {α : Type} {s : State} {n : Nat} {M : List (Byte × Cause)} (i : Instr) (value : α → DWord) (p : Proc)
    {body : State → Res α} (hM : failureResults i = M ++ gateResult)
    (h : (body (enterProc p s)).Within n (ownFrame s.cfg i) M SameInited (enterProc p s)) :
    Finishes (n + 1) (ownFrame s.cfg i) (failureResults i) SameInited s
      (gated s fun s => finish value id (body (enterProc p s))) := by
  have hfin := finish_keeps value id (L := failureResults i) (h.after_withSeq SameInited.keeps rfl) fun q hq => by
    rw [hM]
    exact List.mem_append_left _ hq
  exact hfin.gated (run := fun s => finish value id (body (enterProc p s)))
    (by rw [hM]; exact List.mem_append_right _ (List.mem_singleton.mpr rfl))

/-- A gated ABI operation: its body's causes under code 1 (rule R180), and the refusal of rule R26. -/
theorem abi_finishes {s : State} {n : Nat} {M : List (Byte × Cause)} (i : Instr) (p : Proc) {body : State → Res Unit}
    (hM : failureResults i = abiResults M ++ gateResult)
    (h : (body (enterProc p s)).Within n (ownFrame s.cfg i) M SameInited (enterProc p s)) :
    Finishes (n + 1) (ownFrame s.cfg i) (failureResults i) SameInited s
      (gated s fun s => finishAbi (body (enterProc p s))) := by
  have hfin := finish_keeps (fun _ => 1) (fun _ => 1) (L := failureResults i) (h.after_withSeq SameInited.keeps rfl)
    fun q hq => by
      rw [hM]
      exact List.mem_append_left _ (List.mem_map.mpr ⟨q, hq, rfl⟩)
  exact hfin.gated (run := fun s => finishAbi (body (enterProc p s)))
    (by rw [hM]; exact List.mem_append_right _ (List.mem_singleton.mpr rfl))

theorem Res.popped_eq_fail {α : Type} {r : Res α} {c : Byte} {e : Cause} {t : State} :
    r.popped = .fail c e t ↔ ∃ u, r = .fail c e u ∧ popProc u = t := by
  cases r <;> simp [Res.popped, and_assoc]

/-- An operation that initialises the bus: `INITED` is 1 exactly if its code is 0, for no failure has code 0. -/
theorem init_finishes {s : State} {L : List (Byte × Cause)} {F : Txn → Prop} {p : Proc} {r : Res Unit}
    (value : Unit → DWord) (code : Byte → Byte) (h : r.Within (boundReset s.cfg + 2) F resetResults AnySeq (enterProc p s))
    (hok : ∀ t, r = .ok () t → t.seq.inited = true) (hfail : ∀ d e t, r = .fail d e t → t.seq.inited = false)
    (hL : ∀ q ∈ resetResults, (code q.1, q.2) ∈ L) (hcode : ∀ q ∈ L, q.1 ≠ 0) :
    Finishes (boundReset s.cfg + 2 + 1) F L (fun _ q => q.inited = decide (q.resCode = 0)) s (finish value code r) := by
  refine finish_finishes value code (h.after_withSeq AnySeq.keeps trivial) hL (fun _ t ht _ => ?_)
    fun d e t u ht _ hu hm => ?_
  · simpa using hok t ht
  · have hne : decide (code d = 0) = false := decide_eq_false (hcode _ hm)
    exact (hu.trans (hfail d e t ht)).trans hne.symm

theorem deinitBus_finishes (s : State) :
    Finishes (stepBound s.cfg .deinitBus + 1) (ownFrame s.cfg .deinitBus) [] (fun _ q => q.inited = false) s
      (exec .deinitBus s) := by
  have h : (deinitBus (enterProc .deinitBus s)).Within (1 + 0) (ownFrame s.cfg .deinitBus) [] AnySeq (enterProc .deinitBus s) :=
    (briDisable_within AnySeq.keeps 1).bind AnySeq.keeps fun _ _ _ _ _ => Res.Within.ok_withSeq () trivial
  refine finish_finishes _ id (h.after_withSeq AnySeq.keeps trivial) (fun _ => id) (fun _ t ht _ => ?_)
    fun _ _ _ _ _ _ _ hm => absurd hm List.not_mem_nil
  obtain ⟨_, u, _, hk⟩ := Res.bind_eq_ok.mp ht
  cases hk
  rfl

theorem abiInitialize_finishes (s : State) :
    Finishes (stepBound s.cfg .abiInitialize + 1) (ownFrame s.cfg .abiInitialize) (failureResults .abiInitialize)
      (fun _ q => q.inited = decide (q.resCode = 0)) s (exec .abiInitialize s) := by
  have hbus : ∀ t : State, t.cfg = s.cfg → _ := fun t ht => initBus_within (F := ownFrame s.cfg .abiInitialize)
    (L := resetResults) (s := t) ht (own_txnCmd (by simp [frameOpcodes])) (own_txnCmd (by simp [frameOpcodes]))
    (own_txnRdsr (by simp [frameOpcodes])) fun _ => id
  have hcall : (abiInitialize (enterProc .abiInitialize s)).Within (boundReset s.cfg + 2) (ownFrame s.cfg .abiInitialize)
      resetResults AnySeq (enterProc .abiInitialize s) :=
    Res.Within.call AnySeq.keeps 1 _ fun t ht _ _ _ _ => (hbus t ht).1
  rw [exec_abiInitialize]
  refine init_finishes _ _ hcall (fun t ht => ?_) (fun d e t ht => ?_) (fun q hq => List.mem_map.mpr ⟨q, hq, rfl⟩)
    (by decide)
  · obtain ⟨u, hu, rfl⟩ := Res.popped_eq_ok.mp ht
    exact (hbus (pushProc .initBus (setPhase 1 (enterProc .abiInitialize s))) rfl).2.1 u hu
  · obtain ⟨u, hu, rfl⟩ := Res.popped_eq_fail.mp ht
    exact (hbus (pushProc .initBus (setPhase 1 (enterProc .abiInitialize s))) rfl).2.2 d e u hu

/-- Every host operation, in both environments (rules R26, R94, R104, R232, R272). -/
theorem exec_finishes (i : Instr) (hi : isHostOp i = true) (s : State) :
    Finishes (stepBound s.cfg i + 1) (ownFrame s.cfg i) (failureResults i) (initedAfter i) s (exec i s) := by
  have hK := SameInited.keeps
  cases i with
  | readStatus =>
    exact core_finishes (M := [(1, .busTimeout)]) .readStatus _ .readStatus rfl
      (readStatus_within hK rfl (own_txnRdsr (by simp [frameOpcodes])) (by simp))
  | waitNotBusy n =>
    exact core_finishes (M := [(1, .busTimeout), (2, .deviceTimeout)]) (.waitNotBusy n) _ .waitNotBusy rfl
      (waitNotBusy_within hK rfl n (own_txnRdsr (by simp [frameOpcodes])) (by simp) (by simp))
  | sendCommand op a =>
    have hF : ownFrame s.cfg (.sendCommand op a) (commandTxn op (a.map trunc24)) := by
      cases a <;> exact ⟨List.mem_singleton.mpr rfl, fun _ => rfl⟩
    exact core_finishes (M := [(1, .busTimeout)]) (.sendCommand op a) _ .sendCommand rfl
      (sendCommand_within hK rfl op _ hF (by simp))
  | writeEnable =>
    exact core_finishes (M := [(1, .busTimeout), (2, .busTimeout), (3, .writeEnableFailed)]) .writeEnable _ .writeEnable rfl
      (writeEnable_within hK rfl (own_txnCmd (by simp [frameOpcodes])) (own_txnRdsr (by simp [frameOpcodes])) fun _ => id)
  | resetMemory =>
    exact core_finishes (M := resetResults) .resetMemory _ .resetMemory rfl
      (resetMemory_within hK rfl (own_txnCmd (by simp [frameOpcodes])) (own_txnCmd (by simp [frameOpcodes]))
        (own_txnRdsr (by simp [frameOpcodes])) fun _ => id)
  | read a n =>
    exact core_finishes (M := [(1, .busTimeout), (2, .busTimeout), (3, .busTimeout)]) (.read a n) _ .read rfl
      (read_within hK rfl (fun _ _ => rfl) a n (fun h => ⟨List.mem_singleton.mpr rfl, fun _ => txnQread_wf _ _ h⟩)
        fun _ => id)
  | write a n =>
    exact core_finishes (M := writeResults) (.write a n) _ .write rfl
      (write_within rfl a n (own_txnCmd (by simp [frameOpcodes])) (own_txnRdsr (by simp [frameOpcodes]))
        (own_txnQpp (by simp [frameOpcodes])) fun _ => id)
  | erase a v =>
    exact core_finishes (M := eraseStages v) (.erase a v) _ .erase (by cases v <;> rfl)
      (erase_within hK rfl a v (own_txnCmd (by cases v <;> simp [frameOpcodes]))
        (own_txnRdsr (by cases v <;> simp [frameOpcodes])) (eraseTxn_own _ a v) fun _ => id)
  | chipErase =>
    exact core_finishes (M := chipResults) .chipErase _ .chipErase rfl
      (chipErase_within hK rfl (own_txnCmd (by simp [frameOpcodes])) (own_txnRdsr (by simp [frameOpcodes]))
        (own_txnCmd (by simp [frameOpcodes])) fun _ => id)
  | initBus =>
    obtain ⟨h, hok, hfail⟩ := initBus_within (F := ownFrame s.cfg .initBus) (L := resetResults)
      (s := enterProc .initBus s) rfl (own_txnCmd (by simp [frameOpcodes])) (own_txnCmd (by simp [frameOpcodes]))
      (own_txnRdsr (by simp [frameOpcodes])) fun _ => id
    exact init_finishes _ id h hok hfail (fun _ => id) (by decide)
  | deinitBus => exact deinitBus_finishes s
  | abiInitialize => exact abiInitialize_finishes s
  | abiProgram a n =>
    exact abi_finishes (M := writeResults) (.abiProgram a n) .abiProgram rfl (Res.Within.call hK 1 _ fun t hct _ _ _ _ =>
      write_within hct (abiMask s.cfg a) n (own_txnCmd (by simp [frameOpcodes])) (own_txnRdsr (by simp [frameOpcodes]))
        (own_txnQpp (by simp [frameOpcodes])) fun _ => id)
  | abiEraseRange x y =>
    exact abi_finishes (M := eraseResults) (.abiEraseRange x y) .abiEraseRange rfl
      (abiEraseRange_within rfl (own_txnCmd (by simp [frameOpcodes])) (own_txnRdsr (by simp [frameOpcodes]))
        (fun _ => ⟨by simp [frameOpcodes, txnCmda], fun _ => rfl⟩) fun _ => id)
  | abiVerify =>
    exact .inl ⟨⟨.withSeq s _, (Small.of_trace_eq (s := s) (t := complete 0 .none 0 (enterProc .abiVerify s)) rfl).mono
      (fun _ => Nat.zero_le _) fun _ => id, rfl, rfl, rfl, .inl ⟨rfl, rfl⟩⟩, rfl⟩
  | rdsr | wren | wrdi | rsten | rst | qread _ _ | qpp _ _ | se4k _ | be32k _ | be64k _ | ce => cases hi

end Sys2Proof.Machine
end

section
/-! What the summary of every operation says, statement by statement: parameters, `INITED`, completion, results, bounds,
frames, refusals and a reset of SEQ. -/

namespace Sys2Proof.Machine

/-! ### The two formats of instruction -/

/-- A flash command at the top level is the device's own execution of it. -/
theorem exec_flash {i : Instr} (h : isHostOp i = false) (s : State) : exec i s = flashExec i s := by
  cases i with
  | rdsr | wren | wrdi | rsten | rst | qread _ _ | qpp _ _ | se4k _ | be32k _ | be64k _ | ce => rfl
  | readStatus | waitNotBusy _ | sendCommand _ _ | writeEnable | resetMemory | read _ _ | write _ _ | erase _ _
  | chipErase | initBus | deinitBus | abiInitialize | abiProgram _ _ | abiEraseRange _ _ | abiVerify => cases h

theorem flash_move {i : Instr} {s t : State} (hi : isHostOp i = false) (h : exec i s = .next t) : DeviceMove s t := by
  have hends := flashExec_ends i s
  rw [← exec_flash hi, h] at hends
  exact hends

theorem DeviceMove.newCalls {s t : State} (h : DeviceMove s t) : newCalls s t = [] :=
  newCalls_of_trace_eq (by rw [h.env])

/-- A host operation that ends in a state completed there, or the host's reset ended it. -/
theorem hostOp_next {i : Instr} {s t : State} (hi : isHostOp i = true) (h : exec i s = .next t) :
    (Completed (stepBound s.cfg i + 1) (ownFrame s.cfg i) (failureResults i) s t ∧ initedAfter i s.seq t.seq)
      ∨ (Interrupted s t ∧ Small (stepBound s.cfg i + 1) (ownFrame s.cfg i) s t) := by
  have hfin := exec_finishes i hi s
  rw [h] at hfin
  exact hfin

theorem Interrupted.ne_none {s t : State} (h : Interrupted s t) : s.host.resetAt ≠ none := by
  rw [h.resetAt]
  exact nofun

/-- With no reset to come it completed. -/
theorem hostOp_completed {i : Instr} {s t : State} (hi : isHostOp i = true) (hr : s.host.resetAt = none)
    (h : exec i s = .next t) :
    Completed (stepBound s.cfg i + 1) (ownFrame s.cfg i) (failureResults i) s t ∧ initedAfter i s.seq t.seq :=
  (hostOp_next hi h).resolve_right fun hint => hint.1.ne_none hr

/-- Either way it kept to its bound and its frames. -/
theorem hostOp_small {i : Instr} {s t : State} (hi : isHostOp i = true) (h : exec i s = .next t) :
    Small (stepBound s.cfg i + 1) (ownFrame s.cfg i) s t ∧ t.cfg = s.cfg
      ∧ t.env.now = s.env.now + (newCalls s t).length := by
  rcases hostOp_next hi h with ⟨hc, _⟩ | ⟨hint, hs⟩
  · exact ⟨hc.small, hc.traced.cfg, hc.traced.now⟩
  · exact ⟨hs, hint.cfg, hint.now⟩

/-! ### One step of the machine -/

theorem decodeHost_isHostOp {w : HostWord} {i : Instr} (h : decodeHost w = .ok i) : isHostOp i = true := by
  unfold decodeHost at h
  split at h <;> cases h <;> rfl

/-- The state a SEQ step ends in: that of the host's reset, or that of its action once the agents have moved. -/
theorem seqStep_sat {α : Type} {P : State → Prop} {ph : Nat} {s : State} {act : Draw → State → Res α}
    (hreset : P (resetSeq s))
    (hact : (act (nextDraw s) (advance (setPhase ph s))).Sat fun u => ∀ t, AgentMove u t → P t) :
    (seqStep ph s act).Sat P := by
  unfold seqStep
  split
  · exact hreset
  · cases hr : act (nextDraw s) (advance (setPhase ph s)) with
    | ok a u =>
      rw [hr] at hact
      have hagents := (otherAgents_ends (nextDraw s) u).mono hact
      rw [Res.bind_ok]
      cases ho : otherAgents (nextDraw s) u with
      | ok x t => rw [ho] at hagents; exact hagents
      | fail c e t => rw [ho] at hagents; exact hagents.elim
      | reset t => rw [ho] at hagents; exact hagents.elim
      | fault f => trivial
      | refused x => trivial
    | fail c e u => rw [hr] at hact; exact hact u (.refl u)
    | reset u => rw [hr] at hact; exact hact u (.refl u)
    | fault f => trivial
    | refused x => trivial

/-- A turn in which SEQ waits: a reset of SEQ, or a move of the agents (rule R260). -/
theorem idleTurn_next {s t : State} (h : idleTurn s = .next t) :
    t = resetSeq s ∨ AgentMove (advance (setPhase 0 s)) t := by
  have hsat : (seqStep 0 s fun _ s => Res.ok () s).Sat
      (fun t => t = resetSeq s ∨ AgentMove (advance (setPhase 0 s)) t) := seqStep_sat (.inl rfl) fun _ => .inr
  unfold idleTurn at h
  cases hr : seqStep 0 s fun _ s => Res.ok () s with
  | ok a u => rw [hr] at h hsat; cases h; exact hsat
  | fail c e u => rw [hr] at h hsat; cases h; exact hsat
  | reset u => rw [hr] at h hsat; cases h; exact hsat
  | fault f => rw [hr] at h; cases h
  | refused x => rw [hr] at h; cases h

/-- What a step that ends in a state did. -/
theorem step_next {s t : State} (h : step s = .next t) :
    s.seq.rdy = true ∧ (idleTurn s = .next t ∨ (∃ off b, t = hbufWrite off b (takeAct s))
      ∨ (∃ w i, isHostOp i = true ∧ exec i (acceptCommand w (takeAct s)) = .next t)
      ∨ ∃ w, t = refuseCommand 0xFF .illegalCommand (acceptCommand w (takeAct s))) := by
  cases hrdy : s.seq.rdy with
  | false => simp [step, hrdy] at h
  | true =>
    refine ⟨rfl, ?_⟩
    cases hs : s.host.script with
    | nil => exact .inl (step_idle hrdy hs ▸ h)
    | cons a rest =>
      cases a with
      | store off b =>
        rw [step_store hrdy hs] at h
        cases h
        exact .inr (.inl ⟨off, b, rfl⟩)
      | command w =>
        rw [step_command hrdy hs] at h
        cases hd : decodeHost w with
        | ok i => exact .inr (.inr (.inl ⟨w, i, decodeHost_isHostOp hd, runCommand_ok hd _ ▸ h⟩))
        | error e =>
          rw [runCommand_error hd] at h
          cases h
          exact .inr (.inr (.inr ⟨w, rfl⟩))

/-! ### The statements -/

theorem exec_cfg {i : Instr} {s t : State} (h : exec i s = .next t) : t.cfg = s.cfg := by
  cases hi : isHostOp i with
  | true => exact (hostOp_small hi h).2.1
  | false => exact (flash_move hi h).cfg

/-- Settles O10: of what a step can do, nothing writes the parameters. -/
theorem nothingWritesCfg : Obligations.NothingWritesCfg := by
  refine ⟨fun s t h => ?_, fun i s t => exec_cfg⟩
  obtain ⟨_, h | ⟨off, b, rfl⟩ | ⟨w, i, _, h⟩ | ⟨w, rfl⟩⟩ := step_next h
  · rcases idleTurn_next h with rfl | hm
    · rfl
    · exact hm.cfg
  · rfl
  · exact exec_cfg (s := acceptCommand w (takeAct s)) h
  · rfl

/-- Settles O14: what each operation makes of the flag is part of its summary. -/
theorem initedFlag : Obligations.InitedFlag := by
  intro i s t hr h
  cases hi : isHostOp i with
  | false =>
    have hseq := (flash_move hi h).seq
    refine ⟨?_, ?_, fun _ _ _ => by rw [hseq]⟩
    · rintro (rfl | rfl) <;> cases hi
    · rintro rfl
      cases hi
  | true =>
    have hflag := (hostOp_completed hi hr h).2
    refine ⟨?_, ?_, fun h1 h2 h3 => ?_⟩
    · rintro (rfl | rfl) <;> exact hflag
    · rintro rfl
      exact hflag
    · cases i with
      | initBus => exact absurd rfl h1
      | abiInitialize => exact absurd rfl h2
      | deinitBus => exact absurd rfl h3
      | _ => exact hflag

/-- Settles O15: under ENV-ANY with no reset to come an operation neither stops nor is interrupted. -/
theorem everyOperationCompletes : Obligations.EveryOperationCompletes := by
  intro i s hi hw hu
  have hfin := exec_finishes i hi s
  cases ho : exec i s with
  | next t =>
    obtain ⟨hc, _⟩ := hostOp_completed hi hu.2 ho
    exact ⟨t, rfl, hc.rdy, hc.done, hc.pc, hc.traced.cfg, hc.traced.dev hu.1⟩
  | fault f =>
    rw [ho] at hfin
    exact absurd hu (hfin hw)
  | refused x =>
    rw [ho] at hfin
    exact absurd hu (hfin hw).2.2

/-- Settles O16: a completion's result is part of the summary. -/
theorem resultsAreListed : Obligations.ResultsAreListed := by
  intro i s t hi hr h
  obtain ⟨hc, _⟩ := hostOp_completed hi hr h
  refine ⟨hc.result.imp_right fun ⟨p, hp, hcode, hcause, hval⟩ => ⟨?_, hval⟩, hc.done, hc.rdy, hc.pc⟩
  exact List.mem_map.mpr ⟨p, hp, by rw [hcode, hcause]⟩

/-- Settles O17: the steps on the interface are those on record, which keep to the bound. -/
theorem operationStepBound : Obligations.OperationStepBound := by
  intro i s t hw h
  cases hi : isHostOp i with
  | true =>
    obtain ⟨hs, _, hnow⟩ := hostOp_small hi h
    have := hs.steps hw
    omega
  | false =>
    have hnow : t.env.now = s.env.now := by rw [(flash_move hi h).env]
    omega

/-- Every transaction configured is one of the operation's own. -/
theorem newFrames_own {i : Instr} {s t : State} (h : exec i s = .next t) : ∀ x ∈ newFrames s t, ownFrame s.cfg i x := by
  cases hi : isHostOp i with
  | true => exact (hostOp_small hi h).1.frames
  | false =>
    intro x hx
    rw [newFrames, (flash_move hi h).newCalls] at hx
    exact absurd hx List.not_mem_nil

/-- Settles O41. -/
theorem framesAreTheOperationsOwn : Obligations.FramesAreTheOperationsOwn :=
  fun _ _ _ h x hx => (newFrames_own h x hx).1

/-- Settles O42. -/
theorem everyFrameWellFormed : Obligations.EveryFrameWellFormed :=
  fun _ _ _ hw h x hx => (newFrames_own h x hx).2 hw

/-- Settles O44: a stop of a host operation is neither; a flash command refuses only the shape of its frame. -/
theorem neverOverruns : Obligations.NeverOverruns := by
  intro i s hw
  suffices h : ∀ x, exec i s = .refused x → x ≠ .controllerBusy ∧ x ≠ .fifoFull from
    ⟨fun e => (h _ e).1 rfl, fun e => (h _ e).2 rfl⟩
  intro x hx
  cases hi : isHostOp i with
  | true =>
    have hfin := exec_finishes i hi s
    rw [hx] at hfin
    exact ⟨(hfin hw).1, (hfin hw).2.1⟩
  | false =>
    have hends := flashExec_ends i s
    rw [← exec_flash hi, hx] at hends
    cases hends
    exact ⟨by decide, by decide⟩

/-- Settles O46: a completed operation left the reset to come, an interrupted one used it up. -/
theorem hostResetEndsOperation : Obligations.HostResetEndsOperation := by
  refine ⟨fun i s t k hi hk hle h => ?_, fun s hrdy hs hk => ?_⟩
  · rcases hostOp_next hi h with ⟨hc, _⟩ | ⟨hint, _⟩
    · have hpend : t.host.resetAt = some k := hc.traced.resetAt.trans hk
      exact ⟨fun hn => (by simp [hpend] at hn), fun _ => ⟨hpend, hc.traced.pending k hk hle, hc.done⟩⟩
    · have hnow : t.env.now = k := Option.some.inj (hint.resetAt.symm.trans hk)
      refine ⟨fun _ => ⟨hnow, ?_⟩, fun hn => absurd hint.host hn⟩
      rw [hint.seq]
      exact ⟨rfl, rfl, rfl, rfl, rfl, rfl, rfl⟩
  · exact ⟨resetSeq s, (step_idle hrdy hs).trans (idleTurn_reset hk), rfl, rfl, rfl, rfl, rfl, rfl⟩

end Sys2Proof.Machine
end

section
/-! What every operation keeps of the environment: the invariant of device, FIFO and host buffer (rules R69, R190, R212),
and the host's buffer but for the bytes a READ stores (rule R79). -/

namespace Sys2Proof.Machine

/-! ### The invariant -/

/-- The part of `State.Inv` that is not about SEQ's registers. -/
structure EnvInv (s : State) : Prop where
  dev : DeviceInv s.cfg s.dev
  hbuf : Mem.wf s.host.hbuf = true
  fifo : s.bri.fifo.length ≤ s.cfg.fifoDepth

theorem inv_iff (s : State) : s.Inv ↔ EnvInv s ∧ s.seq.resCause.toNat ≤ 5 ∧ s.seq.rdy = true ∧ s.seq.pc = [] := by
  constructor
  · rintro ⟨hmem, hbuf, harray, hop, hidle, hfifo, hcause, hrdy, hpc⟩
    exact ⟨⟨⟨hmem, harray, hop, hidle⟩, hbuf, hfifo⟩, hcause, hrdy, hpc⟩
  · rintro ⟨⟨⟨hmem, harray, hop, hidle⟩, hbuf, hfifo⟩, hcause, hrdy, hpc⟩
    exact ⟨hmem, hbuf, harray, hop, hidle, hfifo, hcause, hrdy, hpc⟩

/-- The environment's invariant is kept. -/
def KeepsEnv (s t : State) : Prop := EnvInv s → EnvInv t

theorem KeepsEnv.agents {s t u : State} (h : KeepsEnv s t) (k : AgentMove t u) : KeepsEnv s u := fun hs => by
  obtain ⟨hdev, hbuf, hfifo⟩ := h hs
  exact ⟨k.cfg.symm ▸ k.inv hdev, k.host.symm ▸ hbuf, k.cfg.symm ▸ k.bri.depth hfifo⟩

/-- A SEQ step that calls the controller, its FIFO staying within its depth. -/
theorem KeepsEnv.bri {s : State} {ph : Nat} {c : BusCall} {b : Bri}
    (hb : s.bri.fifo.length ≤ s.cfg.fifoDepth → b.fifo.length ≤ s.cfg.fifoDepth) :
    KeepsEnv s (record c ((advance (setPhase ph s)).withBri b)) :=
  fun hs => ⟨hs.dev, hs.hbuf, hb hs.fifo⟩

section

variable {α : Type} {s : State} {ph : Nat}

theorem keepsEnv_step {act : Draw → State → Res α}
    (h : (act (nextDraw s) (advance (setPhase ph s))).Sat (KeepsEnv s)) : (seqStep ph s act).Sat (KeepsEnv s) :=
  seqStep_sat (fun hs => ⟨hs.dev, hs.hbuf, hs.fifo⟩) (h.mono fun _ hu _ => hu.agents)

theorem onController_sat {P : State → Prop} {u : State} {x y : Res α} (hx : x.Sat P) (hy : y.Sat P) :
    (onController u x y).Sat P := ClosedParts.onController (R := fun _ => P) hx hy

/-- A call that leaves the controller. -/
theorem KeepsEnv.call (c : BusCall) : KeepsEnv s (record c (advance (setPhase ph s))) :=
  KeepsEnv.bri (b := s.bri) fun h => h

end

theorem keepsEnv_closed : Closed KeepsEnv where
  refl _ := id
  trans _ _ _ h k := k ∘ h
  regs _ _ := fun hs => ⟨hs.dev, hs.hbuf, hs.fifo⟩
  tick _ _ := keepsEnv_step (KeepsEnv.call _)
  flags _ _ := keepsEnv_step (onController_sat (KeepsEnv.call _) (KeepsEnv.call _))
  configure _ _ _ := keepsEnv_step (onController_sat (KeepsEnv.bri fun h => h) (by
    split
    · trivial
    · exact KeepsEnv.bri fun h => h))
  trigger _ _ := keepsEnv_step (onController_sat (KeepsEnv.call _) (KeepsEnv.bri fun h => h))
  clearTc _ _ := keepsEnv_step (onController_sat (KeepsEnv.call _) (KeepsEnv.bri fun h => h))
  clearAll _ _ := keepsEnv_step (onController_sat (KeepsEnv.call _) (KeepsEnv.bri fun h => h))
  readByte _ s := keepsEnv_step (onController_sat (KeepsEnv.call _) (by
    split
    · trivial
    · next b rest hf =>
      refine KeepsEnv.bri fun h => ?_
      have hlen : s.bri.fifo.length = rest.length + 1 := congrArg List.length hf
      change rest.length ≤ _
      omega))
  writeByte _ v s := keepsEnv_step (onController_sat (KeepsEnv.call _) (by
    split
    · next hroom =>
      refine KeepsEnv.bri fun _ => ?_
      change s.bri.fifo.length < _ at hroom
      change (s.bri.fifo ++ [v]).length ≤ _
      simpa using hroom
    · trivial))
  init _ _ _ := keepsEnv_step (KeepsEnv.bri fun h => h)
  enable _ s := keepsEnv_step (KeepsEnv.bri fun h => by
    change (enabledController s.env.model s.bri).fifo.length ≤ _
    cases s.env.model with
    | any => exact h
    | ref => exact Nat.zero_le _)
  disable _ _ := keepsEnv_step fun hs => ⟨hs.dev, hs.hbuf, List.length_take_le _ _⟩

theorem keepsEnv_store : StoreClosed KeepsEnv := fun _ _ _ hs => ⟨hs.dev, memWrite_wf _ _ hs.hbuf, hs.fifo⟩

theorem hostOp_keepsEnv {i : Instr} (hi : isHostOp i = true) {s t : State} (h : exec i s = .next t) : KeepsEnv s t := by
  by_cases hr : ∃ a n, i = .read a n
  · obtain ⟨a, n, rfl⟩ := hr
    exact keepsEnv_closed.hostRead keepsEnv_store a n s t h
  · exact keepsEnv_closed.hostOp i hi (fun a n e => hr ⟨a, n, e⟩) s t h

/-! ### SEQ between operations -/

theorem Cause.code_le (c : Cause) : c.code.toNat ≤ 5 := by
  cases c <;> decide

/-- After a host operation SEQ is ready and `IDLE`, with one of the causes of rule R231. -/
theorem hostOp_idle {i : Instr} (hi : isHostOp i = true) {s t : State} (h : exec i s = .next t) :
    t.seq.resCause.toNat ≤ 5 ∧ t.seq.rdy = true ∧ t.seq.pc = [] := by
  rcases hostOp_next hi h with ⟨hc, _⟩ | ⟨hint, _⟩
  · refine ⟨?_, hc.rdy, hc.pc⟩
    rcases hc.result with ⟨_, hcause⟩ | ⟨p, _, _, hcause, _⟩
    · rw [hcause]; decide
    · rw [hcause]; exact p.2.code_le
  · rw [hint.seq]
    exact ⟨by decide, rfl, rfl⟩

/-- Settles O9: the environment's part is closed under every SEQ step and agent move; SEQ's part is what an operation ends
with. -/
theorem stepKeepsInv : Obligations.StepKeepsInv := by
  intro s t hinv h
  rw [inv_iff] at hinv ⊢
  obtain ⟨henv, hcause, hrdy, hpc⟩ := hinv
  obtain ⟨_, h | ⟨off, b, rfl⟩ | ⟨w, i, hi, h⟩ | ⟨w, rfl⟩⟩ := step_next h
  · rcases idleTurn_next h with rfl | hm
    · exact ⟨⟨henv.dev, henv.hbuf, henv.fifo⟩, Nat.zero_le _, rfl, rfl⟩
    · have hidle : (advance (setPhase 0 s)).seq = s.seq := by rw [advance_seq, setPhase_seq_nil 0 s hpc]
      have hseq : t.seq = s.seq := hm.seq.trans hidle
      have hstart : KeepsEnv s (advance (setPhase 0 s)) := fun hs => ⟨hs.dev, hs.hbuf, hs.fifo⟩
      exact ⟨hstart.agents hm henv, hseq ▸ hcause, hseq ▸ hrdy, hseq ▸ hpc⟩
  · exact ⟨⟨henv.dev, memWrite_wf _ _ henv.hbuf, henv.fifo⟩, hcause, hrdy, hpc⟩
  · exact ⟨hostOp_keepsEnv hi h ⟨henv.dev, henv.hbuf, henv.fifo⟩, hostOp_idle hi h⟩
  · exact ⟨⟨henv.dev, henv.hbuf, henv.fifo⟩, Cause.code_le .illegalCommand, rfl, rfl⟩

/-! ### The host's buffer -/

/-- The host's buffer is as before. -/
def SameBuffer (s t : State) : Prop := t.host.hbuf = s.host.hbuf

theorem agentStep_sameBuffer (a : AgentStep) (s : State) : (agentStep a s).Sat (SameBuffer s) :=
  (agentStep_ends a s).sat.mono fun _ h => congrArg HostSide.hbuf h.host

theorem sameBuffer_closed : Closed SameBuffer :=
  ClosedParts.closed
    { refl := fun _ => rfl
      trans := fun _ _ _ h k => k.trans h
      regs := fun _ _ => rfl
      bri := fun _ _ => rfl
      advance := fun _ => rfl
      record := fun _ _ => rfl
      useFree := fun _ _ => rfl
      reset := fun _ => rfl
      agents := agentStep_sameBuffer }

/-- From offset `n` on the host's buffer is as before; the buffer is in canonical form. -/
def SameFrom (n : Nat) (s t : State) : Prop :=
  Mem.wf s.host.hbuf = true →
    Mem.wf t.host.hbuf = true ∧ ∀ k, n ≤ k → memRead t.host.hbuf k = memRead s.host.hbuf k

theorem SameBuffer.sameFrom {n : Nat} {s t : State} (h : SameBuffer s t) : SameFrom n s t := fun hw => by
  rw [SameBuffer] at h
  rw [h]
  exact ⟨hw, fun _ _ => rfl⟩

theorem SameFrom.trans {n : Nat} {s t u : State} (h : SameFrom n s t) (k : SameFrom n t u) : SameFrom n s u :=
  fun hw => ⟨(k (h hw).1).1, fun j hj => ((k (h hw).1).2 j hj).trans ((h hw).2 j hj)⟩

/-- A store below `n`. -/
theorem SameFrom.store {n : Nat} {s : State} {off : Word} (b : Byte) (h : off.toNat < n) : SameFrom n s (hbufWrite off b s) :=
  fun hw => ⟨memWrite_wf _ _ hw, fun k hk => by
    rw [hbufWrite_host, memRead_memWrite _ _ k hw, if_neg (by omega)]⟩

/-- One part after another, the second from the states in which the first is `Ok`. -/
theorem Res.Sat.bind_ok {α β : Type} {P Q : State → Prop} {r : Res α} {k : α → State → Res β} (h : r.Sat P)
    (hpq : ∀ t, P t → Q t) (hk : ∀ a t, r = .ok a t → P t → (k a t).Sat Q) : (r.bind k).Sat Q := by
  cases r with
  | ok a t => exact hk a t rfl h
  | fail c e t => exact hpq t h
  | reset t => exact hpq t h
  | fault f => trivial
  | refused x => trivial

/-- `IDX` is as before. -/
def SameIdx (q q' : Seq) : Prop := q'.idx = q.idx

theorem SameIdx.keeps : Keeps SameIdx := ⟨fun _ => rfl, fun _ _ _ h k => k.trans h, fun _ _ _ _ _ _ => rfl⟩

/-- The bytes READ stores lie below its length. -/
theorem readBytes_sameFrom {n : Nat} (hn : n < 2 ^ 32) : ∀ (k : Nat) (s : State), s.seq.idx.toNat + k = n →
    (readBytes k s).Sat (SameFrom n s)
  | 0, s, _ => SameBuffer.sameFrom rfl
  | k + 1, s, hk => by
    have hsat := (sameBuffer_closed.callWait 4 maskFtTc true s).orTimeout 2
    refine hsat.bind_ok (fun _ h => h.sameFrom) fun _ t ht hst => ?_
    have hidx : t.seq.idx = s.seq.idx := ((callWaitOr_within (F := fun _ => True) (L := [(2, .busTimeout)]) SameIdx.keeps rfl
      4 maskFtTc true (by simp)).keeps ht).2
    refine Res.Sat.bind_ok (P := SameFrom n t) (Res.Sat.bind_ok (P := SameBuffer t) (sameBuffer_closed.readByte 5 t)
      (fun _ h => h.sameFrom) fun b u hu hsu => ?_) (fun _ h => hst.sameFrom.trans h) fun _ v hv hsv => ?_
    · have hidx' : u.seq.idx = t.seq.idx := ((briReadByte_within (F := fun _ => True) (L := []) SameIdx.keeps 5).keeps hu).2
      exact hsu.sameFrom.trans (SameFrom.store b (by rw [hidx', hidx]; omega))
    · obtain ⟨b, u, hu, hk'⟩ := Res.bind_eq_ok.mp hv
      cases hk'
      have hidx' : u.seq.idx = t.seq.idx := ((briReadByte_within (F := fun _ => True) (L := []) SameIdx.keeps 5).keeps hu).2
      refine (readBytes_sameFrom hn k _ ?_).mono fun _ h => hst.sameFrom.trans (hsv.trans h)
      rw [setIdx_seq, hidx', hidx, BitVec.toNat_add]
      change (s.seq.idx.toNat + 1) % 2 ^ 32 + k = n
      rw [Nat.mod_eq_of_lt (by omega)]
      omega

theorem read_sameFrom (a n : Word) (s : State) : (read a n s).Sat (SameFrom n.toNat s) := by
  unfold read
  split
  · exact SameBuffer.sameFrom rfl
  · refine (sameBuffer_closed.callIssue 1 1 _ s).bind_ok (fun _ h => h.sameFrom) fun _ t _ hst => ?_
    refine (readBytes_sameFrom n.isLt n.toNat (setIdx 0 t) (Nat.zero_add _)).bind_ok
      (fun _ h => hst.sameFrom.trans h) fun _ u _ hsu => ?_
    refine Res.Sat.mono (sameBuffer_closed.seq ((sameBuffer_closed.callWait 6 maskTc true u).orTimeout 3) fun _ v =>
      sameBuffer_closed.clearTc 7 v) fun _ h => hst.sameFrom.trans (SameFrom.trans hsu h.sameFrom)

/-- The end of an operation leaves the buffer as its body left it. -/
theorem finish_sat {α : Type} {P : State → Prop} {r : Res α} (value : α → DWord) (code : Byte → Byte) (h : r.Sat P)
    (hP : ∀ t u, P t → SameBuffer t u → P u) : Ends P (finish value code r) := by
  cases r with
  | ok a t => exact Ends.next (hP t _ h rfl)
  | fail c e t =>
    have hend : Ends (SameBuffer t) (finish value code (.fail c e t : Res α)) :=
      sameBuffer_closed.finish (s := t) value code rfl
    exact fun u hu => hP t u h (hend u hu)
  | reset t => exact Ends.next h
  | fault f => intro u hu; cases hu
  | refused x => intro u hu; cases hu

theorem flash_sameBuffer {i : Instr} (hi : isHostOp i = false) {s t : State} (h : exec i s = .next t) : SameBuffer s t :=
  congrArg HostSide.hbuf (flash_move hi h).host

/-- Settles O40: every SEQ step but READ's store leaves the buffer, and READ stores at offsets below its length. -/
theorem hostBufferFrame : Obligations.HostBufferFrame := by
  intro i s t h
  refine ⟨fun hr => ?_, ?_⟩
  · cases hi : isHostOp i with
    | true => exact sameBuffer_closed.hostOp i hi hr s t h
    | false => exact flash_sameBuffer hi h
  · rintro a n rfl hw k hk
    have hsame : SameFrom n.toNat s t := by
      cases hin : s.seq.inited with
      | false =>
        rw [exec_read, gated_closed hin] at h
        cases h
        exact SameBuffer.sameFrom rfl
      | true =>
        rw [exec_read, gated_open hin] at h
        exact finish_sat _ _ (read_sameFrom a n (enterProc .read s)) (fun _ _ h1 h2 => SameFrom.trans h1 h2.sameFrom) t h
    exact (hsame hw).2 k hk

end Sys2Proof.Machine
end

section
/-! The write-enable handshake (rules R75, R276): between the byte that shows the latch and the frame that consumes it no
byte is read, and every other frame consumes nothing. -/

namespace Sys2Proof.Machine

/-! ### Lists of calls, newest first -/

theorem mem_framesOf {x : Txn} {l : List BusCall} : x ∈ framesOf l ↔ .configure x ∈ l := by
  simp only [framesOf, List.mem_filterMap]
  constructor
  · rintro ⟨c, hc, hx⟩
    cases c <;> simp at hx
    exact hx ▸ hc
  · exact fun h => ⟨_, h, rfl⟩

/-- Without a frame that consumes the latch there is nothing to confirm. -/
theorem latchConfirmed_of_frames {c : Cfg} : ∀ {l : List BusCall}, (∀ x, .configure x ∈ l → consumesLatch c x = false) →
    latchConfirmed c l = true
  | [], _ => rfl
  | a :: l, h => by
    have ih := latchConfirmed_of_frames (l := l) fun x hx => h x (List.mem_cons_of_mem _ hx)
    cases a with
    | configure x => simp [latchConfirmed, h x List.mem_cons_self, ih]
    | _ => exact ih

theorem lastByteRead_append {l m : List BusCall} {b : Byte} (h : lastByteRead l = some b) :
    lastByteRead (l ++ m) = some b := by
  induction l with
  | nil => cases h
  | cons a l ih =>
    cases a with
    | readByte d => exact h
    | _ => exact ih h

/-- Calls that read no byte leave the last byte read. -/
theorem lastByteRead_silent {l m : List BusCall} (h : ∀ b, .readByte b ∉ l) : lastByteRead (l ++ m) = lastByteRead m := by
  induction l with
  | nil => rfl
  | cons a l ih =>
    have ih := ih fun b hb => h b (List.mem_cons_of_mem _ hb)
    cases a with
    | readByte d => exact absurd List.mem_cons_self (h d)
    | _ => exact ih

/-- Later calls that confirm by themselves, after earlier ones that do. -/
theorem latchConfirmed_append {c : Cfg} {l m : List BusCall} (hl : latchConfirmed c l = true)
    (hm : latchConfirmed c m = true) : latchConfirmed c (l ++ m) = true := by
  induction l with
  | nil => exact hm
  | cons a l ih =>
    cases a with
    | configure x =>
      simp only [latchConfirmed, Bool.and_eq_true, List.cons_append] at hl ⊢
      refine ⟨?_, ih hl.2⟩
      obtain ⟨hx, _⟩ := hl
      cases hr : lastByteRead l with
      | none =>
        rw [hr] at hx
        simp at hx
        simp [hx]
      | some b =>
        rw [hr] at hx
        rw [lastByteRead_append hr]
        exact hx
    | _ => exact ih hl

/-- Calls that read no byte, after a byte that shows the latch. -/
theorem latchConfirmed_silent {c : Cfg} {l m : List BusCall} {b : Byte} (h : ∀ b, .readByte b ∉ l)
    (hm : latchConfirmed c m = true) (hb : lastByteRead m = some b) (hwel : statusWel c b = true) :
    latchConfirmed c (l ++ m) = true := by
  induction l with
  | nil => exact hm
  | cons a l ih =>
    have hl : ∀ b, .readByte b ∉ l := fun b hb => h b (List.mem_cons_of_mem _ hb)
    have ih := ih hl
    cases a with
    | configure x =>
      simp only [latchConfirmed, List.cons_append, lastByteRead_silent hl, hb]
      simp [hwel, ih]
    | _ => exact ih

/-! ### The record from state to state -/

/-- The calls between two states, newest first. -/
def callsBack (s t : State) : List BusCall := (newEntries s t).map TraceEntry.call

theorem callsBack_trans {s t u : State} (h : Continues s t) (k : Continues t u) :
    callsBack s u = callsBack t u ++ callsBack s t := by
  rw [callsBack, newEntries_trans h k, List.map_append]
  rfl

theorem callsBack_of_trace_eq {s t : State} (h : t.env.trace = s.env.trace) : callsBack s t = [] := by
  rw [callsBack, newEntries_eq (es := []) h]
  rfl

theorem mem_callsBack {s t : State} {c : BusCall} : c ∈ callsBack s t ↔ c ∈ newCalls s t := by simp [callsBack, newCalls]

/-- Between the states every frame that consumes the latch is confirmed, by the calls between them alone. -/
structure Confirmed (s t : State) : Prop where
  cfg : t.cfg = s.cfg
  trace : Continues s t
  latch : latchConfirmed s.cfg (callsBack s t) = true

theorem Confirmed.of_trace_eq {s t : State} (hc : t.cfg = s.cfg) (h : t.env.trace = s.env.trace) : Confirmed s t :=
  ⟨hc, .of_trace_eq h, by rw [callsBack_of_trace_eq h]; rfl⟩

theorem Confirmed.trans {s t u : State} (h : Confirmed s t) (k : Confirmed t u) : Confirmed s u where
  cfg := k.cfg.trans h.cfg
  trace := h.trace.trans k.trace
  latch := by
    rw [callsBack_trans h.trace k.trace]
    exact latchConfirmed_append (h.cfg ▸ k.latch) h.latch

/-- Frames that consume nothing. -/
theorem Confirmed.of_small {n : Nat} {F : Txn → Prop} {s t : State} (hc : t.cfg = s.cfg) (ht : Continues s t)
    (h : Small n F s t) (hF : ∀ x, F x → consumesLatch s.cfg x = false) : Confirmed s t :=
  ⟨hc, ht, latchConfirmed_of_frames fun x hx => hF x (h.frames x (mem_framesOf.mpr (mem_callsBack.mp hx)))⟩

theorem Res.Within.confirmed {α : Type} {n : Nat} {F : Txn → Prop} {L : List (Byte × Cause)} {K : Seq → Seq → Prop}
    {s : State} {r : Res α} (h : r.Within n F L K s) (hF : ∀ x, F x → consumesLatch s.cfg x = false) :
    r.Sat (Confirmed s) := by
  cases r with
  | ok a t => exact .of_small h.1.cfg h.1.trace h.2.1 hF
  | fail c e t => exact .of_small h.1.cfg h.1.trace h.2.1 hF
  | reset t => exact .of_small h.1.cfg h.1.trace h.2 hF
  | fault f => trivial
  | refused x => trivial

/-- Between the states no byte was read. -/
structure Silent (s t : State) : Prop where
  cfg : t.cfg = s.cfg
  trace : Continues s t
  noRead : ∀ b, .readByte b ∉ callsBack s t

theorem Silent.of_trace_eq {s t : State} (hc : t.cfg = s.cfg) (h : t.env.trace = s.env.trace) : Silent s t :=
  ⟨hc, .of_trace_eq h, fun b => by rw [callsBack_of_trace_eq h]; exact List.not_mem_nil⟩

theorem Silent.trans {s t u : State} (h : Silent s t) (k : Silent t u) : Silent s u where
  cfg := k.cfg.trans h.cfg
  trace := h.trace.trans k.trace
  noRead b hb := by
    rw [callsBack_trans h.trace k.trace] at hb
    exact (List.mem_append.mp hb).elim (k.noRead b) (h.noRead b)

/-- A register write before a part. -/
theorem Silent.after {α : Type} {s : State} {q : Seq} {r : Res α} (h : r.Sat (Silent (s.withSeq q))) : r.Sat (Silent s) :=
  h.mono fun _ ht => ⟨ht.cfg, ht.trace, ht.noRead⟩

theorem Confirmed.after {α : Type} {s : State} {q : Seq} {r : Res α} (h : r.Sat (Confirmed (s.withSeq q))) :
    r.Sat (Confirmed s) :=
  h.mono fun _ ht => ⟨ht.cfg, ht.trace, ht.latch⟩

/-- The last byte read between the states shows the latch, and so all is confirmed. -/
structure Latched (s t : State) : Prop extends Confirmed s t where
  last : ∃ b, lastByteRead (callsBack s t) = some b ∧ statusWel s.cfg b = true

theorem Latched.silent {s t u : State} (h : Latched s t) (k : Silent t u) : Confirmed s u where
  cfg := k.cfg.trans h.cfg
  trace := h.trace.trans k.trace
  latch := by
    obtain ⟨b, hb, hwel⟩ := h.last
    rw [callsBack_trans h.trace k.trace]
    exact latchConfirmed_silent k.noRead h.latch hb hwel

theorem Confirmed.latched {s t u : State} (h : Confirmed s t) (k : Latched t u) : Latched s u where
  toConfirmed := h.trans k.toConfirmed
  last := by
    obtain ⟨b, hb, hwel⟩ := k.last
    refine ⟨b, ?_, h.cfg ▸ hwel⟩
    rw [callsBack_trans h.trace k.trace]
    exact lastByteRead_append hb

theorem Latched.after {s t : State} {q : Seq} (h : Latched (s.withSeq q) t) : Latched s t :=
  ⟨⟨h.cfg, h.trace, h.latch⟩, h.last⟩

/-! ### ISSUE and SEND_COMMAND read no byte -/

theorem silent_step {α : Type} {ph : Nat} {s : State} {act : Draw → State → Res α}
    (h : (act (nextDraw s) (advance (setPhase ph s))).Sat fun u => ∃ c b,
      u = record c ((advance (setPhase ph s)).withBri b) ∧ ∀ d, c ≠ .readByte d) : (seqStep ph s act).Sat (Silent s) := by
  refine seqStep_sat (.of_trace_eq rfl rfl) (h.mono ?_)
  rintro u ⟨c, b, rfl, hc⟩ t ht
  have htrace : t.env.trace = [{ pc := (setPhase ph s).seq.pc, call := c }] ++ s.env.trace := by rw [ht.env]; rfl
  refine ⟨ht.cfg, ⟨_, htrace⟩, fun d hd => ?_⟩
  rw [callsBack, newEntries_eq htrace] at hd
  exact hc d (List.mem_singleton.mp hd).symm

section

variable {s : State} (ph : Nat)

theorem tick_silent : (tick ph s).Sat (Silent s) := silent_step ⟨_, s.bri, rfl, nofun⟩

theorem briFlags_silent : (briFlags ph s).Sat (Silent s) :=
  silent_step (onController_sat ⟨_, s.bri, rfl, nofun⟩ ⟨_, s.bri, rfl, nofun⟩)

theorem briConfigure_silent (x : Txn) : (briConfigure ph x s).Sat (Silent s) :=
  silent_step (onController_sat ⟨_, _, rfl, nofun⟩ (by
    split
    · trivial
    · exact ⟨_, _, rfl, nofun⟩))

theorem briTrigger_silent : (briTrigger ph s).Sat (Silent s) :=
  silent_step (onController_sat ⟨_, s.bri, rfl, nofun⟩ ⟨_, _, rfl, nofun⟩)

theorem briClearTc_silent : (briClearTc ph s).Sat (Silent s) :=
  silent_step (onController_sat ⟨_, s.bri, rfl, nofun⟩ ⟨_, _, rfl, nofun⟩)

end

/-- One part after another, neither reading a byte. -/
theorem Silent.seq {α β : Type} {s : State} {r : Res α} {k : α → State → Res β} (h : r.Sat (Silent s))
    (hk : ∀ a t, (k a t).Sat (Silent t)) : (r.bind k).Sat (Silent s) :=
  h.bind fun a t ht => (hk a t).mono fun _ => ht.trans

theorem Silent.call {α : Type} {ph : Nat} {p : Proc} {s : State} {body : State → Res α}
    (h : ∀ t, (body t).Sat (Silent t)) : (call ph p s body).Sat (Silent s) :=
  (Silent.after (s := s) (h (pushProc p (setPhase ph s)))).popped fun _ ht => ht.trans (.of_trace_eq rfl rfl)

theorem waitFlagLoop_silent (mask : FlagSet) (e : Bool) : ∀ (n : Nat) (s : State),
    (waitFlagLoop mask e n s).Sat (Silent s)
  | 0, s => .of_trace_eq rfl rfl
  | n + 1, s => Silent.seq (briFlags_silent 1) fun f t => by
      split
      · exact .of_trace_eq (s := t) rfl rfl
      · exact Silent.seq (tick_silent 2) fun _ u =>
          Silent.after (waitFlagLoop_silent mask e n (countTmoBus u))

theorem callWait_silent (ph : Nat) (mask : FlagSet) (e : Bool) (s : State) : (callWait ph mask e s).Sat (Silent s) :=
  Silent.call fun t => Silent.after (waitFlagLoop_silent mask e _ (setTmoBus s.cfg.busWaitTicks t))

theorem issue_silent (x : Txn) (s : State) : (issue x s).Sat (Silent s) :=
  Silent.seq (callWait_silent 1 maskBusy false s) fun w t => by
    cases w with
    | timeout => exact .of_trace_eq (s := t) rfl rfl
    | met =>
      have hframe : (startFrame x t).Sat (Silent t) :=
        Silent.after (Silent.seq (briConfigure_silent (s := setTxn x t) 2 x) fun _ _ => briTrigger_silent 3)
      exact Silent.seq hframe fun _ u => .of_trace_eq (s := u) rfl rfl

theorem callIssue_silent (ph : Nat) (code : Byte) (x : Txn) (s : State) : (callIssue ph code x s).Sat (Silent s) :=
  (Silent.call (issue_silent x)).orTimeout code

theorem callSendCommand_silent (ph : Nat) (code op : Byte) (a : Option Addr24) (s : State) :
    (callSendCommand ph code op a s).Sat (Silent s) :=
  (Silent.call fun t => Silent.seq (callIssue_silent 1 1 _ t) fun _ u =>
    Silent.seq ((callWait_silent 2 maskTc true u).orTimeout 1) fun _ _ => briClearTc_silent 3).recode code

/-! ### The latch poll ends with a byte that shows the latch -/

theorem Cfg.wf_consumesLatch {c : Cfg} (hw : c.wf = true) {x : Txn} (h : x.opcode ∈ c.opcodes.take 6) :
    consumesLatch c x = false := by
  have hnodup := Cfg.wf_opcodes_nodup hw
  rw [← List.take_append_drop 6 c.opcodes] at hnodup
  have hnot : x.opcode ∉ c.opcodes.drop 6 := (List.nodup_append'.mp hnodup).2.2 h
  exact Bool.eq_false_iff.mpr fun h' => hnot (List.contains_iff_mem.mp h')

theorem consumesLatch_rdsr {c : Cfg} (hw : c.wf = true) : consumesLatch c (txnRdsr c) = false :=
  Cfg.wf_consumesLatch hw (by simp [Cfg.opcodes, txnRdsr])

theorem consumesLatch_wren {c : Cfg} (hw : c.wf = true) : consumesLatch c (txnCmd c.opWriteEnable) = false :=
  Cfg.wf_consumesLatch hw (by simp [Cfg.opcodes, txnCmd])

/-- The frames that consume nothing. -/
def HarmlessFrame (c : Cfg) (x : Txn) : Prop := consumesLatch c x = false

section

variable {s t : State} {b : Byte}

theorem briReadByte_last {ph : Nat} (h : briReadByte ph s = .ok b t) : callsBack s t = [.readByte b] := by
  obtain ⟨u, hu, ht⟩ := seqStep_ok_move h
  have hrec : ∃ v : Bri, u = record (.readByte b) ((advance (setPhase ph s)).withBri v) := by
    unfold onController at hu
    split at hu
    · cases hu; exact ⟨s.bri, rfl⟩
    · split at hu
      · split at hu
        · cases hu
        · cases hu; exact ⟨_, rfl⟩
      · cases hu
  obtain ⟨v, rfl⟩ := hrec
  have htrace : t.env.trace = [{ pc := (setPhase ph s).seq.pc, call := .readByte b }] ++ s.env.trace := by rw [ht.env]; rfl
  rw [callsBack, newEntries_eq htrace]
  rfl

/-- The byte READ_STATUS returns is the last byte read. -/
theorem readStatus_last (hw : s.cfg.wf = true) (h : readStatus s = .ok b t) :
    Confirmed s t ∧ lastByteRead (callsBack s t) = some b := by
  have hin := readStatus_within (c := s.cfg) (F := HarmlessFrame s.cfg) (L := [(1, .busTimeout)]) AnySeq.keeps rfl
    (consumesLatch_rdsr hw) (by simp)
  have hconf := hin.confirmed fun _ => id
  rw [h] at hconf
  refine ⟨hconf, ?_⟩
  obtain ⟨_, t1, h1, h⟩ := Res.bind_eq_ok.mp h
  obtain ⟨_, t2, h2, h⟩ := Res.bind_eq_ok.mp h
  obtain ⟨_, t3, h3, h⟩ := Res.bind_eq_ok.mp h
  obtain ⟨d, t4, h4, h⟩ := Res.bind_eq_ok.mp h
  cases h
  have hbefore : Continues s t3 := by
    have k1 := callIssue_silent 1 1 (txnRdsr s.cfg) s
    have k2 := (callWait_silent 2 maskTc true t1).orTimeout 1
    have k3 := briClearTc_silent (s := t2) 3
    rw [h1] at k1
    rw [h2] at k2
    rw [h3] at k3
    exact (k1.trans (k2.trans k3)).trace
  have hread := ((briReadByte_within (F := fun _ => True) (L := []) AnySeq.keeps 4).keeps h4).1.trace
  have hback : callsBack s (setSrSnap b t4) = callsBack s t4 := rfl
  rw [hback, callsBack_trans hbefore hread, briReadByte_last h4]
  rfl

theorem callReadStatus_last {ph : Nat} {code : Byte} (hw : s.cfg.wf = true)
    (h : (callReadStatus ph s).recode code = .ok b t) : Confirmed s t ∧ lastByteRead (callsBack s t) = some b := by
  obtain ⟨u, hu, rfl⟩ := Res.popped_eq_ok.mp (Res.recode_eq_ok.mp h)
  obtain ⟨hc, hl⟩ := readStatus_last (s := pushProc .readStatus (setPhase ph s)) hw hu
  exact ⟨⟨hc.cfg, hc.trace, hc.latch⟩, hl⟩

theorem latchPoll_latched : ∀ {n : Nat} {s t : State}, s.cfg.wf = true → latchPoll n s = .ok () t → Latched s t
  | 0, _, _, _, h => by cases h
  | n + 1, s, t, hw, h => by
    obtain ⟨b, u, hu, hk⟩ := Res.bind_eq_ok.mp h
    obtain ⟨hconf, hlast⟩ := callReadStatus_last hw hu
    split at hk
    · next hwel =>
      cases hk
      exact ⟨hconf, b, hlast, hconf.cfg ▸ hwel⟩
    · obtain ⟨_, v, hv, hw'⟩ := Res.bind_eq_ok.mp hk
      have htick := (tick_within (F := fun _ => False) (L := []) AnySeq.keeps (s := u) 3).confirmed nofun
      rw [hv] at htick
      have hpoll := latchPoll_latched (s := countTmoDev v) (by rw [countTmoDev_cfg, htick.cfg, hconf.cfg, hw]) hw'
      exact hconf.latched (htick.latched hpoll.after)

theorem writeEnable_latched (hw : s.cfg.wf = true) (h : writeEnable s = .ok () t) : Latched s t := by
  obtain ⟨_, u, hu, hk⟩ := Res.bind_eq_ok.mp h
  have hsend := (callSendCommand_within (c := s.cfg) (F := HarmlessFrame s.cfg) (L := [(1, .busTimeout)]) AnySeq.keeps rfl
    1 (code := 1) s.cfg.opWriteEnable none (consumesLatch_wren hw) (by simp)).confirmed fun _ => id
  rw [hu] at hsend
  have hpoll := latchPoll_latched (s := setTmoDev u.cfg.welRetry u) (by rw [setTmoDev_cfg, hsend.cfg, hw]) hk
  exact hsend.latched hpoll.after

theorem callWriteEnable_latched (hw : s.cfg.wf = true) (h : callWriteEnable s = .ok () t) : Latched s t := by
  obtain ⟨u, hu, rfl⟩ := Res.popped_eq_ok.mp (Res.recode_eq_ok.mp h)
  have hl := writeEnable_latched (s := pushProc .writeEnable (setPhase 1 s)) hw hu
  exact ⟨⟨hl.cfg, hl.trace, hl.latch⟩, hl.last⟩

theorem callWriteEnable_confirmed (hw : s.cfg.wf = true) : (callWriteEnable s).Sat (Confirmed s) :=
  (callWriteEnable_within (F := HarmlessFrame s.cfg) (L := enableResults 1) AnySeq.keeps rfl (consumesLatch_wren hw)
    (consumesLatch_rdsr hw) fun _ => id).confirmed fun _ => id

theorem callWaitNotBusy_confirmed (hw : s.cfg.wf = true) (ph : Nat) (code : Byte) (n : Word) :
    (callWaitNotBusy ph code n s).Sat (Confirmed s) :=
  (callWaitNotBusy_within (F := HarmlessFrame s.cfg) (L := deviceResults code) AnySeq.keeps rfl ph n (consumesLatch_rdsr hw)
    fun _ => id).confirmed fun _ => id

end

/-! ### Programs and erases -/

/-- Write enable, then a part that reads no byte, then a part whose own frames are confirmed. -/
theorem enabled_confirmed {α : Type} {s : State} (hw : s.cfg.wf = true) {send : State → Res α} {rest : α → State → Res Unit}
    (hsend : ∀ t, (send t).Sat (Silent t)) (hrest : ∀ t a u, send t = .ok a u → u.cfg.wf = true →
      (rest a u).Sat (Confirmed u)) :
    ((callWriteEnable s).bind fun _ t => (send t).bind rest).Sat (Confirmed s) := by
  refine (callWriteEnable_confirmed hw).bind_ok (fun _ => id) fun _ t ht _ => ?_
  have hlatched := callWriteEnable_latched hw ht
  refine (hsend t).bind_ok (fun _ => hlatched.silent) fun a u hu hsil => ?_
  have hcfg : u.cfg.wf = true := by rw [hsil.cfg, hlatched.cfg, hw]
  exact (hrest t a u hu hcfg).mono fun _ => (hlatched.silent hsil).trans

theorem Confirmed.seq {α β : Type} {s : State} {r : Res α} {k : α → State → Res β} (h : r.Sat (Confirmed s))
    (hk : ∀ a t, r = .ok a t → t.cfg = s.cfg → (k a t).Sat (Confirmed t)) : (r.bind k).Sat (Confirmed s) :=
  h.bind_ok (fun _ => id) fun a t ht hc => (hk a t ht hc.cfg).mono fun _ => hc.trans

theorem Confirmed.call {α : Type} {ph : Nat} {p : Proc} {s : State} {body : State → Res α}
    (h : ∀ t, t.cfg = s.cfg → (body t).Sat (Confirmed t)) : (Machine.call ph p s body).Sat (Confirmed s) :=
  (Confirmed.after (s := s) (h (pushProc p (setPhase ph s)) rfl)).popped fun _ ht => ht.trans (.of_trace_eq rfl rfl)

section

variable {s : State} (hw : s.cfg.wf = true)
include hw

theorem chipErase_confirmed : (chipErase s).Sat (Confirmed s) :=
  enabled_confirmed hw (fun t => callSendCommand_silent 2 2 _ none t) fun _ _ _ _ hu => callWaitNotBusy_confirmed hu 3 3 _

theorem eraseBlock_confirmed (a : Word) (op : Byte) (ms : Nat) : (eraseBlock a op ms s).Sat (Confirmed s) :=
  enabled_confirmed hw (fun t => callSendCommand_silent 2 2 op _ t) fun _ _ u _ hu =>
    Confirmed.seq (callWaitNotBusy_confirmed hu 3 3 _) fun _ v _ _ =>
    Confirmed.seq ((callWaitOr_within (F := fun _ => False) (L := [(4, .busTimeout)]) AnySeq.keeps rfl 4 maskBusy false
      (by simp)).confirmed nofun) fun _ _ _ _ =>
    (briClearAll_within (F := fun _ => False) (L := []) AnySeq.keeps 5).confirmed nofun

theorem erase_confirmed (a : Word) (v : BlockSize) : (erase a v s).Sat (Confirmed s) := by
  cases v with
  | all => exact Confirmed.call fun t ht => chipErase_confirmed (ht ▸ hw)
  | b4K => exact eraseBlock_confirmed hw a _ _
  | b32K => exact eraseBlock_confirmed hw a _ _
  | b64K => exact eraseBlock_confirmed hw a _ _

theorem writeChunk_confirmed : (writeChunk s).Sat (Confirmed s) := by
  refine enabled_confirmed hw (fun t => callIssue_silent 2 2 _ t) fun t _ u hu huw => ?_
  have hdir : (setIdx 0 u).env.model = .ref → (setIdx 0 u).bri.cfg.direction = .write := fun _ => by
    rw [setIdx_bri, callIssue_ok hu]
    rfl
  have hbytes : (writeBytes u.seq.curSize.toNat (setIdx 0 u)).Sat (Confirmed u) :=
    Confirmed.after ((writeBytes_within (F := fun _ => False) (L := [(3, .busTimeout)]) AnySeq.keeps (fun _ _ => trivial)
      (by simp) _ (setIdx 0 u) rfl hdir).confirmed nofun)
  refine Confirmed.seq hbytes fun _ v _ hv => ?_
  refine Confirmed.seq ((callWaitOr_within (F := fun _ => False) (L := [(4, .busTimeout)]) AnySeq.keeps rfl 5 maskTc true
    (by simp)).confirmed nofun) fun _ w _ hwc => ?_
  refine Confirmed.seq ((briClearTc_within (F := fun _ => False) (L := []) AnySeq.keeps 6).confirmed nofun) fun _ x _ hx => ?_
  have hxw : x.cfg.wf = true := by rw [hx, hwc, hv, huw]
  exact Confirmed.seq (callWaitNotBusy_confirmed hxw 7 5 _) fun _ y _ _ => .of_trace_eq (s := y) rfl rfl

omit hw in
theorem writeChunks_confirmed : ∀ (n : Nat) (s : State), s.cfg.wf = true → (writeChunks n s).Sat (Confirmed s)
  | 0, _, _ => trivial
  | n + 1, s, hw => Confirmed.seq (writeChunk_confirmed hw) fun _ t _ ht => by
      split
      · exact writeChunks_confirmed n t (ht ▸ hw)
      · exact .of_trace_eq (s := t) rfl rfl

theorem write_confirmed (a n : Word) : (write a n s).Sat (Confirmed s) := by
  unfold write
  split
  · exact .of_trace_eq (s := s) rfl rfl
  · exact Confirmed.after (writeChunks_confirmed n.toNat (setProgramLoop a (firstChunk s.cfg a n) (a + n) 0 s) hw)

omit hw in
theorem eraseBlocks_confirmed : ∀ (n : Nat) (s : State), s.cfg.wf = true → (eraseBlocks n s).Sat (Confirmed s)
  | 0, s, _ => by
    unfold eraseBlocks
    split
    · exact .of_trace_eq (s := s) rfl rfl
    · trivial
  | n + 1, s, hw => by
    unfold eraseBlocks
    split
    · exact .of_trace_eq (s := s) rfl rfl
    · exact Confirmed.seq (Confirmed.call fun t ht => erase_confirmed (ht ▸ hw) _ _) fun _ t _ ht =>
        Confirmed.after (eraseBlocks_confirmed n (setErAddr _ t) (ht ▸ hw))

theorem abiEraseRange_confirmed (x y : Word) : (abiEraseRange x y s).Sat (Confirmed s) :=
  Confirmed.after (Confirmed.after (s := setErEnd (abiMask s.cfg y) s)
    (eraseBlocks_confirmed _ (setErAddr (abiEraseStart s.cfg x) (setErEnd (abiMask s.cfg y) s)) hw))

end

/-- The end of an operation: CLEANUP issues no frame. -/
theorem finish_confirmed {α : Type} {s : State} {r : Res α} (value : α → DWord) (code : Byte → Byte)
    (h : r.Sat (Confirmed s)) : Ends (Confirmed s) (finish value code r) := by
  cases r with
  | ok a t => exact Ends.next (h.trans (.of_trace_eq (s := t) rfl rfl))
  | fail c e t =>
    have hc := (cleanup_within (F := fun _ => False) (L := []) (s := t) AnySeq.keeps).confirmed nofun
    simp only [finish]
    cases hr : cleanup t with
    | ok a u => rw [hr] at hc; exact Ends.next ((h.trans hc).trans (.of_trace_eq (s := u) rfl rfl))
    | fail d f u => rw [hr] at hc; exact Ends.next ((h.trans hc).trans (.of_trace_eq (s := u) rfl rfl))
    | reset u => rw [hr] at hc; exact Ends.next (h.trans hc)
    | fault f => intro u hu; cases hu
    | refused x => intro u hu; cases hu
  | reset t => exact Ends.next h
  | fault f => intro u hu; cases hu
  | refused x => intro u hu; cases hu

theorem gated_confirmed {s : State} {run : State → Host.Outcome State Fault Refusal} (h : Ends (Confirmed s) (run s)) :
    Ends (Confirmed s) (gated s run) := by
  unfold gated
  split
  · exact h
  · exact Ends.next (.of_trace_eq (s := s) rfl rfl)

/-- A gated operation whose body confirms. -/
theorem run_confirmed {α : Type} {s : State} {p : Proc} (value : α → DWord) (code : Byte → Byte) {body : State → Res α}
    (h : (body (enterProc p s)).Sat (Confirmed (enterProc p s))) :
    Ends (Confirmed s) (gated s fun s => finish value code (body (enterProc p s))) :=
  gated_confirmed (run := fun s => finish value code (body (enterProc p s)))
    (finish_confirmed value code (Confirmed.after h))

/-- An operation whose every opcode is one of the harmless six. -/
theorem hostOp_confirmed {i : Instr} {s t : State} (hw : s.cfg.wf = true) (hi : isHostOp i = true)
    (hop : ∀ op ∈ frameOpcodes s.cfg i, op ∈ s.cfg.opcodes.take 6) (h : exec i s = .next t) :
    latchConfirmed s.cfg (callsBack s t) = true := by
  obtain ⟨hs, _, _⟩ := hostOp_small hi h
  exact latchConfirmed_of_frames fun x hx =>
    Cfg.wf_consumesLatch hw (hop _ (hs.frames x (mem_framesOf.mpr (mem_callsBack.mp hx))).1)

/-- Settles O43: in a program or an erase every consuming frame follows its write enable with no byte read between; every
other operation has harmless opcodes only. -/
theorem latchConfirmedBeforeUse : Obligations.LatchConfirmedBeforeUse := by
  intro i s t hw hsend h
  change latchConfirmed s.cfg (callsBack s t) = true
  cases hi : isHostOp i with
  | false => rw [callsBack, newEntries_eq (es := []) (by rw [(flash_move hi h).env]; rfl)]; rfl
  | true =>
    cases i with
    | sendCommand op a => exact absurd rfl (hsend op a)
    | write a n => exact (run_confirmed _ _ (write_confirmed (s := enterProc .write s) hw a n) t h).latch
    | erase a v => exact (run_confirmed _ _ (erase_confirmed (s := enterProc .erase s) hw a v) t h).latch
    | chipErase => exact (run_confirmed _ _ (chipErase_confirmed (s := enterProc .chipErase s) hw) t h).latch
    | abiProgram a n =>
      have hbody : (abiProgram a n (enterProc .abiProgram s)).Sat (Confirmed (enterProc .abiProgram s)) :=
        Confirmed.call fun t ht => write_confirmed (ht ▸ hw) _ n
      exact (run_confirmed _ _ hbody t h).latch
    | abiEraseRange x y =>
      exact (run_confirmed _ _ (abiEraseRange_confirmed (s := enterProc .abiEraseRange s) hw x y) t h).latch
    | readStatus | waitNotBusy _ | writeEnable | resetMemory | read _ _ | initBus | deinitBus | abiInitialize | abiVerify =>
      exact hostOp_confirmed hw hi (by simp [frameOpcodes, Cfg.opcodes]) h
    | rdsr | wren | wrdi | rsten | rst | qread _ _ | qpp _ _ | se4k _ | be32k _ | be64k _ | ce => cases hi

end Sys2Proof.Machine
end

section
/-! The working registers are unobservable (rule R261): each procedure, run from two states that agree but for them and for
the command registers, ends alike. Each register is written before it is read. -/

namespace Sys2Proof.Machine

/-! ### States that are alike -/

/-- The host-visible registers, the flags and the FSM state agree. -/
structure SameVisible (q q' : Seq) : Prop where
  rdy : q'.rdy = q.rdy
  done : q'.done = q.done
  inited : q'.inited = q.inited
  resCode : q'.resCode = q.resCode
  resCause : q'.resCause = q.resCause
  resValue : q'.resValue = q.resValue
  pc : q'.pc = q.pc

/-- The states agree but for working and command registers, of which they agree as `W` says. -/
structure Alike (W : Seq → Seq → Prop) (s s' : State) : Prop where
  cfg : s'.cfg = s.cfg
  bri : s'.bri = s.bri
  dev : s'.dev = s.dev
  host : s'.host = s.host
  env : s'.env = s.env
  visible : SameVisible s.seq s'.seq
  working : W s.seq s'.seq

theorem sameButWorking_iff (s s' : State) : sameButWorking s s' ↔ Alike AnySeq s s' :=
  ⟨fun ⟨h1, h2, h3, h4, h5, k1, k2, k3, k4, k5, k6, k7⟩ => ⟨h1, h2, h3, h4, h5, ⟨k1, k2, k3, k4, k5, k6, k7⟩, trivial⟩,
    fun ⟨h1, h2, h3, h4, h5, ⟨k1, k2, k3, k4, k5, k6, k7⟩, _⟩ => ⟨h1, h2, h3, h4, h5, k1, k2, k3, k4, k5, k6, k7⟩⟩

/-- An agreement of registers that the poller and the protocol layer cannot break: it is not about `TXN`, the counters, the
status snapshot and the FSM state. -/
def Stable (W : Seq → Seq → Prop) : Prop :=
  ∀ ⦃q q' : Seq⦄ (x x' : Txn) (b b' d d' : Word) (v v' : Byte) (pc pc' : Pc), W q q' →
    W { q with txn := x, tmoBus := b, tmoDev := d, srSnap := v, pc := pc }
      { q' with txn := x', tmoBus := b', tmoDev := d', srSnap := v', pc := pc' }

section Rules

variable {W V : Seq → Seq → Prop} {s s' : State}

theorem Alike.mono (h : Alike W s s') (hWV : ∀ q q', W q q' → V q q') : Alike V s s' :=
  ⟨h.cfg, h.bri, h.dev, h.host, h.env, h.visible, hWV _ _ h.working⟩

/-- Registers written on both sides. -/
theorem Alike.withSeq (h : Alike W s s') {p p' : Seq} (hv : SameVisible p p') (hw : V p p') :
    Alike V (s.withSeq p) (s'.withSeq p') := ⟨h.cfg, h.bri, h.dev, h.host, h.env, hv, hw⟩

/-- The registers of the poller and the protocol layer, written on both sides. -/
theorem Alike.leaf (hW : Stable W) (h : Alike W s s') (x x' : Txn) (b b' d d' : Word) (v v' : Byte) {pc pc' : Pc}
    (hpc : pc' = pc) :
    Alike W (s.withSeq { s.seq with txn := x, tmoBus := b, tmoDev := d, srSnap := v, pc := pc })
      (s'.withSeq { s'.seq with txn := x', tmoBus := b', tmoDev := d', srSnap := v', pc := pc' }) :=
  h.withSeq ⟨h.visible.rdy, h.visible.done, h.visible.inited, h.visible.resCode, h.visible.resCause, h.visible.resValue, hpc⟩
    (hW x x' b b' d d' v v' pc pc' h.working)

theorem Alike.setTmoBus (hW : Stable W) (h : Alike W s s') (n : Word) : Alike W (setTmoBus n s) (setTmoBus n s') :=
  h.leaf hW _ _ n n _ _ _ _ h.visible.pc

theorem Alike.setTmoDev (hW : Stable W) (h : Alike W s s') (n : Word) : Alike W (setTmoDev n s) (setTmoDev n s') :=
  h.leaf hW _ _ _ _ n n _ _ h.visible.pc

theorem Alike.countTmoBus (hW : Stable W) (h : Alike W s s') : Alike W (countTmoBus s) (countTmoBus s') :=
  h.leaf hW _ _ _ _ _ _ _ _ h.visible.pc

theorem Alike.countTmoDev (hW : Stable W) (h : Alike W s s') : Alike W (countTmoDev s) (countTmoDev s') :=
  h.leaf hW _ _ _ _ _ _ _ _ h.visible.pc

theorem Alike.setSrSnap (hW : Stable W) (h : Alike W s s') (b : Byte) : Alike W (setSrSnap b s) (setSrSnap b s') :=
  h.leaf hW _ _ _ _ _ _ b b h.visible.pc

theorem Alike.setTxn (hW : Stable W) (h : Alike W s s') (x : Txn) : Alike W (setTxn x s) (setTxn x s') :=
  h.leaf hW x x _ _ _ _ _ _ h.visible.pc

theorem Alike.setPhase (hW : Stable W) (h : Alike W s s') (ph : Nat) : Alike W (setPhase ph s) (setPhase ph s') :=
  h.leaf hW _ _ _ _ _ _ _ _ (by rw [h.visible.pc])

theorem Alike.pushProc (hW : Stable W) (h : Alike W s s') (p : Proc) : Alike W (pushProc p s) (pushProc p s') :=
  h.leaf hW _ _ _ _ _ _ _ _ (by rw [h.visible.pc])

theorem Alike.popProc (hW : Stable W) (h : Alike W s s') : Alike W (popProc s) (popProc s') :=
  h.leaf hW _ _ _ _ _ _ _ _ (by rw [h.visible.pc])

theorem Alike.enterProc (hW : Stable W) (h : Alike W s s') (p : Proc) : Alike W (enterProc p s) (enterProc p s') :=
  h.leaf hW _ _ _ _ _ _ _ _ rfl

theorem Alike.setInited (h : Alike W s s') (b : Bool) : Alike AnySeq (setInited b s) (setInited b s') :=
  h.withSeq ⟨h.visible.rdy, h.visible.done, rfl, h.visible.resCode, h.visible.resCause, h.visible.resValue, h.visible.pc⟩
    trivial

/-- Working registers beyond the poller's, written on both sides. -/
theorem Alike.working_regs (h : Alike W s s') {cur size last off idx er en cur' size' last' off' idx' er' en' : Word}
    (hw : V { s.seq with curAddr := cur, curSize := size, endAddr := last, bufOff := off, idx := idx, erAddr := er, erEnd := en }
      { s'.seq with curAddr := cur', curSize := size', endAddr := last', bufOff := off', idx := idx', erAddr := er', erEnd := en' }) :
    Alike V
      (s.withSeq { s.seq with
        curAddr := cur, curSize := size, endAddr := last, bufOff := off, idx := idx, erAddr := er, erEnd := en })
      (s'.withSeq { s'.seq with
        curAddr := cur', curSize := size', endAddr := last', bufOff := off', idx := idx', erAddr := er', erEnd := en' }) :=
  h.withSeq ⟨h.visible.rdy, h.visible.done, h.visible.inited, h.visible.resCode, h.visible.resCause, h.visible.resValue,
    h.visible.pc⟩ hw

theorem Alike.complete (h : Alike W s s') (code : Byte) (cause : Cause) (value : DWord) :
    Alike AnySeq (complete code cause value s) (complete code cause value s') :=
  h.withSeq ⟨rfl, rfl, h.visible.inited, rfl, rfl, rfl, rfl⟩ trivial

theorem Alike.resetSeq (h : Alike W s s') : Alike AnySeq (resetSeq s) (resetSeq s') :=
  ⟨h.cfg, h.bri, h.dev, by rw [resetSeq_host, resetSeq_host, h.host], h.env, ⟨rfl, rfl, rfl, rfl, rfl, rfl, rfl⟩, trivial⟩

theorem Alike.advance (h : Alike W s s') : Alike W (advance s) (advance s') :=
  ⟨h.cfg, h.bri, h.dev, h.host, by rw [advance_env, advance_env, h.env], h.visible, h.working⟩

theorem Alike.record (h : Alike W s s') (c : BusCall) : Alike W (record c s) (record c s') :=
  ⟨h.cfg, h.bri, h.dev, h.host, by rw [record_env, record_env, h.env, h.visible.pc], h.visible, h.working⟩

theorem Alike.useFree (h : Alike W s s') (n : Nat) : Alike W (useFree n s) (useFree n s') :=
  ⟨h.cfg, h.bri, h.dev, h.host, by rw [useFree_env, useFree_env, h.env], h.visible, h.working⟩

theorem Alike.withBri (h : Alike W s s') {b b' : Bri} (hb : b' = b) : Alike W (s.withBri b) (s'.withBri b') :=
  ⟨h.cfg, hb, h.dev, h.host, h.env, h.visible, h.working⟩

theorem Alike.hbufWrite (h : Alike W s s') (off : Word) (b : Byte) : Alike W (hbufWrite off b s) (hbufWrite off b s') :=
  ⟨h.cfg, h.bri, h.dev, by rw [hbufWrite_host, hbufWrite_host, h.host], h.env, h.visible, h.working⟩

theorem Alike.eq_withSeq (h : Alike W s s') : s' = s.withSeq s'.seq := by
  obtain ⟨c, q, b, d, ho, e⟩ := s
  obtain ⟨c', q', b', d', ho', e'⟩ := s'
  obtain ⟨h1, h2, h3, h4, h5, -, -⟩ := h
  simp only at h1 h2 h3 h4 h5
  subst h1 h2 h3 h4 h5
  rfl

end Rules

/-! ### Results that are alike -/

/-- The same end, in states that are alike. -/
def Res.Alike {α : Type} (W : Seq → Seq → Prop) (r r' : Res α) : Prop :=
  match r, r' with
  | .ok a t, .ok a' t' => a' = a ∧ Machine.Alike W t t'
  | .fail c e t, .fail c' e' t' => c' = c ∧ e' = e ∧ Machine.Alike AnySeq t t'
  | .reset t, .reset t' => Machine.Alike AnySeq t t'
  | .fault f, .fault f' => f' = f
  | .refused x, .refused x' => x' = x
  | _, _ => False

section Results

variable {α β : Type} {W V : Seq → Seq → Prop} {r r' : Res α}

theorem Res.Alike.bind (h : r.Alike W r') {k : α → State → Res β}
    (hk : ∀ a t t', Machine.Alike W t t' → (k a t).Alike V (k a t')) : (r.bind k).Alike V (r'.bind k) := by
  cases r <;> cases r' <;> try exact h.elim
  case ok.ok => obtain ⟨rfl, h⟩ := h; exact hk _ _ _ h
  all_goals exact h

theorem Res.Alike.mono (h : r.Alike W r') (hWV : ∀ q q', W q q' → V q q') : r.Alike V r' := by
  cases r <;> cases r' <;> try exact h.elim
  case ok.ok => exact ⟨h.1, h.2.mono hWV⟩
  all_goals exact h

theorem Res.Alike.recode (h : r.Alike W r') (c : Byte) : (r.recode c).Alike W (r'.recode c) := by
  cases r <;> cases r' <;> try exact h.elim
  case fail.fail => exact ⟨rfl, h.2⟩
  all_goals exact h

theorem Stable.any : Stable AnySeq := fun _ _ _ _ _ _ _ _ _ _ _ _ _ => trivial

theorem Res.Alike.popped (hW : Stable W) (h : r.Alike W r') : r.popped.Alike W r'.popped := by
  cases r <;> cases r' <;> try exact h.elim
  case ok.ok => exact ⟨h.1, h.2.popProc hW⟩
  case fail.fail => exact ⟨h.1, h.2.1, h.2.2.popProc Stable.any⟩
  all_goals exact h

end Results

/-! ### The agents do not look at SEQ -/

/-- The outcome with SEQ's registers replaced. -/
def outcomeWithSeq (q : Seq) : Host.Outcome State Fault Refusal → Host.Outcome State Fault Refusal
  | .next t => .next (t.withSeq q)
  | .fault f => .fault f
  | .refused x => .refused x

def Res.withSeq {α : Type} (q : Seq) : Res α → Res α
  | .ok a t => .ok a (t.withSeq q)
  | .fail c e t => .fail c e (t.withSeq q)
  | .reset t => .reset (t.withSeq q)
  | .fault f => .fault f
  | .refused x => .refused x

theorem Res.withSeq_bind {α β : Type} {q : Seq} (r : Res α) {k : α → State → Res β}
    (hk : ∀ a t, k a (t.withSeq q) = (k a t).withSeq q) : (r.withSeq q).bind k = (r.bind k).withSeq q := by
  cases r with
  | ok a t => exact hk a t
  | fail c e t => rfl
  | reset t => rfl
  | fault f => rfl
  | refused x => rfl

section Agents

variable (q : Seq) (s : State)

theorem eraseFrame_withSeq (lo hi : Nat) : eraseFrame lo hi (s.withSeq q) = outcomeWithSeq q (eraseFrame lo hi s) := by
  simp only [eraseFrame, apply_ite (outcomeWithSeq q)]
  rfl

theorem execQpp_withSeq (a : Addr24) (d : List Byte) :
    execQpp a d (s.withSeq q) = outcomeWithSeq q (execQpp a d s) := by
  simp only [execQpp, apply_ite (outcomeWithSeq q)]
  rfl

theorem execQread_withSeq (a : Addr24) (n : Word) :
    execQread a n (s.withSeq q) = outcomeWithSeq q (execQread a n s) := by
  simp only [execQread, apply_ite (outcomeWithSeq q)]
  rfl

theorem execRst_withSeq : execRst (s.withSeq q) = outcomeWithSeq q (execRst s) := by
  simp only [execRst, apply_ite (outcomeWithSeq q)]
  rfl

/-- A latch command, for either value of the latch. -/
theorem latchCommand_withSeq (v : Bool) :
    (.next (disarm (if s.dev.busy then s.withSeq q else (s.withSeq q).withDev { s.dev with wel := v })) :
      Host.Outcome State Fault Refusal)
      = outcomeWithSeq q (.next (disarm (if s.dev.busy then s else s.withDev { s.dev with wel := v }))) := by
  cases s.dev.busy <;> rfl

theorem flashExec_withSeq (i : Instr) : flashExec i (s.withSeq q) = outcomeWithSeq q (flashExec i s) := by
  cases i with
  | wren => exact latchCommand_withSeq q s true
  | wrdi => exact latchCommand_withSeq q s false
  | rst => exact execRst_withSeq q s
  | qread a n => exact execQread_withSeq q s a n
  | qpp a d => exact execQpp_withSeq q s a d
  | se4k a => exact eraseFrame_withSeq q s _ _
  | be32k a => exact eraseFrame_withSeq q s _ _
  | be64k a => exact eraseFrame_withSeq q s _ _
  | ce => exact eraseFrame_withSeq q s _ _
  | _ => rfl

theorem ofOutcome_withSeq (o : Host.Outcome State Fault Refusal) :
    Res.ofOutcome (outcomeWithSeq q o) = (Res.ofOutcome o).withSeq q := by
  cases o <;> rfl

theorem deliver_withSeq (f : Frame) : deliver f (s.withSeq q) = (deliver f s).withSeq q := by
  unfold deliver
  rw [withSeq_cfg]
  cases decodeFrame s.cfg f with
  | ok i => exact (congrArg Res.ofOutcome (flashExec_withSeq q s i)).trans (ofOutcome_withSeq q _)
  | error e => cases e <;> rfl

theorem applyOp_withSeq : applyOp (s.withSeq q) = (applyOp s).withSeq q := by
  unfold applyOp
  rw [withSeq_dev]
  cases s.dev.op <;> rfl

theorem deviceEnd_withSeq : deviceEnd (s.withSeq q) = (deviceEnd s).withSeq q := by
  unfold deviceEnd
  rw [withSeq_dev, applyOp_withSeq]
  cases s.dev.busy <;> rfl

theorem supplyByte_withSeq : supplyByte (s.withSeq q) = ((supplyByte s).1, (supplyByte s).2.withSeq q) := by
  unfold supplyByte
  rw [withSeq_dev]
  cases s.dev.answer <;> rfl

theorem takeByte_withSeq : takeByte (s.withSeq q) = (takeByte s).withSeq q := by
  unfold takeByte
  rw [supplyByte_withSeq]
  rfl

theorem commandFrameStep_withSeq : commandFrameStep (s.withSeq q) = (commandFrameStep s).withSeq q := by
  unfold commandFrameStep
  rw [withSeq_bri, deliver_withSeq]
  exact Res.withSeq_bind _ fun _ _ => rfl

theorem openReadFrame_withSeq : openReadFrame (s.withSeq q) = (openReadFrame s).withSeq q := by
  unfold openReadFrame
  rw [withSeq_bri, deliver_withSeq, apply_ite (Res.withSeq q)]
  rfl

theorem readFrameStep_withSeq : readFrameStep (s.withSeq q) = (readFrameStep s).withSeq q := by
  have htake : ((openReadFrame (s.withSeq q)).bind fun _ s' => Res.ok () (takeByte s'))
      = ((openReadFrame s).bind fun _ s' => Res.ok () (takeByte s')).withSeq q := by
    rw [openReadFrame_withSeq]
    exact Res.withSeq_bind _ fun _ t => congrArg (Res.ok ()) (takeByte_withSeq q t)
  have hend : (if s.bri.fifo = [] then (s.withSeq q).withBri { s.bri with busy := false } else s.withSeq q)
      = (if s.bri.fifo = [] then s.withBri { s.bri with busy := false } else s).withSeq q := by
    split <;> rfl
  unfold readFrameStep
  rw [htake, withSeq_bri, withSeq_cfg, hend, apply_ite (Res.withSeq q), apply_ite (Res.withSeq q)]
  rfl

theorem writeFrameStep_withSeq : writeFrameStep (s.withSeq q) = (writeFrameStep s).withSeq q := by
  have hsend : ∀ (f : Frame) (t : State), ((deliver f (t.withSeq q)).bind fun _ s2 =>
      Res.ok () (s2.withBri { s2.bri with tc := true, busy := false }))
      = ((deliver f t).bind fun _ s2 => Res.ok () (s2.withBri { s2.bri with tc := true, busy := false })).withSeq q := by
    intro f t
    rw [deliver_withSeq]
    exact Res.withSeq_bind _ fun _ _ => rfl
  unfold writeFrameStep
  rw [withSeq_bri]
  cases s.bri.fifo with
  | nil => rfl
  | cons b rest =>
    dsimp only
    rw [apply_ite (Res.withSeq q), apply_ite (Res.withSeq q), ← hsend]
    rfl

theorem controllerStep_withSeq : controllerStep (s.withSeq q) = (controllerStep s).withSeq q := by
  unfold controllerStep
  rw [withSeq_bri, commandFrameStep_withSeq, readFrameStep_withSeq, writeFrameStep_withSeq, apply_ite (Res.withSeq q)]
  cases s.bri.cfg.direction <;> rfl

theorem agentStep_withSeq (a : AgentStep) : agentStep a (s.withSeq q) = (agentStep a s).withSeq q := by
  cases a with
  | dev => exact congrArg (Res.ok ()) (deviceEnd_withSeq q s)
  | bri => exact controllerStep_withSeq q s

theorem agentSteps_withSeq : ∀ (l : List AgentStep) (s : State), agentSteps l (s.withSeq q) = (agentSteps l s).withSeq q
  | [], _ => rfl
  | a :: l, s => by
    rw [agentSteps, agentSteps, agentStep_withSeq]
    exact Res.withSeq_bind _ fun _ t => agentSteps_withSeq l t

theorem otherAgents_withSeq (d : Draw) : otherAgents d (s.withSeq q) = (otherAgents d s).withSeq q := by
  unfold otherAgents
  rw [withSeq_env, agentSteps_withSeq]
  cases s.env.model <;> rfl

end Agents

/-- The agents move alike states alike. -/
theorem otherAgents_alike {W : Seq → Seq → Prop} {s s' : State} (h : Alike W s s') (d : Draw) :
    (otherAgents d s).Alike W (otherAgents d s') := by
  have hmove := otherAgents_ends d s
  rw [h.eq_withSeq, otherAgents_withSeq]
  cases hr : otherAgents d s with
  | ok a t =>
    rw [hr] at hmove
    have hseq : t.seq = s.seq := hmove.seq
    exact ⟨rfl, rfl, rfl, rfl, rfl, rfl, hseq ▸ h.visible, hseq ▸ h.working⟩
  | fail c e t => rw [hr] at hmove; exact hmove.elim
  | reset t => rw [hr] at hmove; exact hmove.elim
  | fault f => rfl
  | refused x => rfl

/-! ### The primitives -/

section Primitives

variable {α : Type} {W : Seq → Seq → Prop} (hW : Stable W) {s s' : State}

theorem seqStep_alike {V : Seq → Seq → Prop} (hW : Stable W) (h : Alike W s s') (ph : Nat) {act act' : Draw → State → Res α}
    (hact : ∀ d t t', Alike W t t' → (act d t).Alike V (act' d t')) :
    (seqStep ph s act).Alike V (seqStep ph s' act') := by
  have hdraw : nextDraw s' = nextDraw s := by rw [nextDraw, nextDraw, h.env]
  unfold seqStep
  rw [h.host, h.env, hdraw]
  split
  · exact h.resetSeq
  · exact (hact _ _ _ (h.setPhase hW ph).advance).bind fun a t t' ht =>
      (otherAgents_alike ht _).bind fun _ u u' hu => ⟨rfl, hu⟩

theorem onController_alike (h : Alike W s s') {x x' y y' : Res α} (hx : x.Alike W x') (hy : y.Alike W y') :
    (onController s x y).Alike W (onController s' x' y') := by
  unfold onController
  rw [h.env, h.bri]
  split
  · exact hx
  · split
    · exact hy
    · rfl

include hW

theorem tick_alike (h : Alike W s s') (ph : Nat) : (tick ph s).Alike W (tick ph s') :=
  seqStep_alike hW h ph fun _ _ _ ht => ⟨rfl, ht.record _⟩

theorem briFlags_alike (h : Alike W s s') (ph : Nat) : (briFlags ph s).Alike W (briFlags ph s') :=
  seqStep_alike hW h ph fun _ t t' ht => by
    rw [ht.cfg, ht.bri]
    exact onController_alike ht ⟨rfl, ht.record _⟩ ⟨rfl, ht.record _⟩

theorem briConfigure_alike (h : Alike W s s') (ph : Nat) (x : Txn) : (briConfigure ph x s).Alike W (briConfigure ph x s') :=
  seqStep_alike hW h ph fun _ t t' ht => by
    rw [ht.bri]
    refine onController_alike ht ⟨rfl, (ht.withBri rfl).record _⟩ ?_
    split
    · rfl
    · exact ⟨rfl, (ht.withBri rfl).record _⟩

theorem briTrigger_alike (h : Alike W s s') (ph : Nat) : (briTrigger ph s).Alike W (briTrigger ph s') :=
  seqStep_alike hW h ph fun _ t t' ht => by
    rw [ht.bri]
    exact onController_alike ht ⟨rfl, ht.record _⟩ ⟨rfl, (ht.withBri rfl).record _⟩

theorem briClearTc_alike (h : Alike W s s') (ph : Nat) : (briClearTc ph s).Alike W (briClearTc ph s') :=
  seqStep_alike hW h ph fun _ t t' ht => by
    rw [ht.bri]
    exact onController_alike ht ⟨rfl, ht.record _⟩ ⟨rfl, (ht.withBri rfl).record _⟩

theorem briClearAll_alike (h : Alike W s s') (ph : Nat) : (briClearAll ph s).Alike W (briClearAll ph s') :=
  seqStep_alike hW h ph fun _ t t' ht => by
    rw [ht.bri]
    exact onController_alike ht ⟨rfl, ht.record _⟩ ⟨rfl, (ht.withBri rfl).record _⟩

theorem briReadByte_alike (h : Alike W s s') (ph : Nat) : (briReadByte ph s).Alike W (briReadByte ph s') :=
  seqStep_alike hW h ph fun _ t t' ht => by
    rw [ht.bri]
    refine onController_alike ht ⟨rfl, ht.record _⟩ ?_
    split
    · rfl
    · exact ⟨rfl, (ht.withBri rfl).record _⟩

theorem briWriteByte_alike (h : Alike W s s') (ph : Nat) (v : Byte) :
    (briWriteByte ph v s).Alike W (briWriteByte ph v s') :=
  seqStep_alike hW h ph fun _ t t' ht => by
    rw [ht.bri, ht.cfg]
    refine onController_alike ht ⟨rfl, ht.record _⟩ ?_
    split
    · exact ⟨rfl, (ht.withBri rfl).record _⟩
    · rfl

theorem briInit_alike (h : Alike W s s') (ph : Nat) (f : BusInit) : (briInit ph f s).Alike W (briInit ph f s') :=
  seqStep_alike hW h ph fun _ _ _ ht => ⟨rfl, (ht.withBri (by rw [ht.bri])).record _⟩

theorem briEnable_alike (h : Alike W s s') (ph : Nat) : (briEnable ph s).Alike W (briEnable ph s') :=
  seqStep_alike hW h ph fun _ _ _ ht => ⟨rfl, (ht.withBri (by rw [ht.bri, ht.env])).record _⟩

theorem briDisable_alike (h : Alike W s s') (ph : Nat) : (briDisable ph s).Alike W (briDisable ph s') :=
  seqStep_alike hW h ph fun _ _ _ ht => ⟨rfl, ((ht.withBri (by rw [ht.cfg, ht.env])).useFree _).record _⟩

end Primitives

/-! ### The procedures -/

section Procedures

variable {α : Type} {W : Seq → Seq → Prop} {s s' : State}

theorem call_alike (hW : Stable W) (h : Alike W s s') (ph : Nat) (p : Proc) {body body' : State → Res α}
    (hb : ∀ t t', Alike W t t' → (body t).Alike W (body' t')) : (call ph p s body).Alike W (call ph p s' body') :=
  (hb _ _ ((h.setPhase hW ph).pushProc hW p)).popped hW

variable (hW : Stable W)
include hW

omit hW in
theorem Res.Alike.orTimeout {r r' : Res Waited} (h : r.Alike W r') (code : Byte) :
    (r.orTimeout code).Alike W (r'.orTimeout code) :=
  h.bind fun w t t' ht => by
    cases w with
    | met => exact ⟨rfl, ht⟩
    | timeout => exact ⟨rfl, rfl, ht.mono fun _ _ _ => trivial⟩

theorem waitFlagLoop_alike (mask : FlagSet) (e : Bool) : ∀ (n : Nat) {s s' : State}, Alike W s s' →
    (waitFlagLoop mask e n s).Alike W (waitFlagLoop mask e n s')
  | 0, _, _, h => ⟨rfl, h⟩
  | n + 1, _, _, h => (briFlags_alike hW h 1).bind fun f t t' ht => by
      split
      · exact ⟨rfl, ht⟩
      · exact (tick_alike hW ht 2).bind fun _ u u' hu => waitFlagLoop_alike mask e n (hu.countTmoBus hW)

theorem callWait_alike (h : Alike W s s') (ph : Nat) (mask : FlagSet) (e : Bool) :
    (callWait ph mask e s).Alike W (callWait ph mask e s') := by
  unfold callWait
  rw [h.cfg]
  exact call_alike hW h ph _ fun _ _ ht => waitFlagLoop_alike hW mask e _ (ht.setTmoBus hW _)

theorem issue_alike (h : Alike W s s') (x : Txn) : (issue x s).Alike W (issue x s') :=
  (callWait_alike hW h 1 maskBusy false).bind fun w t t' ht => by
    cases w with
    | timeout => exact ⟨rfl, ht⟩
    | met =>
      have hframe : (startFrame x t).Alike W (startFrame x t') :=
        (briConfigure_alike hW (ht.setTxn hW x) 2 x).bind fun _ _ _ hu => briTrigger_alike hW hu 3
      exact hframe.bind fun _ _ _ hu => ⟨rfl, hu⟩

theorem callIssue_alike (h : Alike W s s') (ph : Nat) (code : Byte) (x : Txn) :
    (callIssue ph code x s).Alike W (callIssue ph code x s') :=
  (call_alike hW h ph _ fun _ _ ht => issue_alike hW ht x).orTimeout code

theorem readStatus_alike (h : Alike W s s') : (readStatus s).Alike W (readStatus s') := by
  unfold readStatus
  rw [h.cfg]
  exact (callIssue_alike hW h 1 1 _).bind fun _ _ _ ht =>
    ((callWait_alike hW ht 2 maskTc true).orTimeout 1).bind fun _ _ _ hu =>
    (briClearTc_alike hW hu 3).bind fun _ _ _ hv =>
    (briReadByte_alike hW hv 4).bind fun b _ _ hw => ⟨rfl, hw.setSrSnap hW b⟩

theorem callReadStatus_alike (h : Alike W s s') (ph : Nat) : (callReadStatus ph s).Alike W (callReadStatus ph s') :=
  call_alike hW h ph _ fun _ _ ht => readStatus_alike hW ht

theorem waitNotBusyLoop_alike : ∀ (n : Nat) {s s' : State}, Alike W s s' →
    (waitNotBusyLoop n s).Alike W (waitNotBusyLoop n s')
  | 0, _, _, h => ⟨rfl, rfl, h.mono fun _ _ _ => trivial⟩
  | n + 1, _, _, h => ((callReadStatus_alike hW h 1).recode 1).bind fun b t t' ht => by
      rw [ht.cfg]
      split
      · exact (tick_alike hW ht 2).bind fun _ u u' hu => waitNotBusyLoop_alike n (hu.countTmoDev hW)
      · exact ⟨rfl, ht⟩

theorem waitNotBusy_alike (h : Alike W s s') (n : Word) : (waitNotBusy n s).Alike W (waitNotBusy n s') :=
  waitNotBusyLoop_alike hW _ (h.setTmoDev hW n)

theorem callWaitNotBusy_alike (h : Alike W s s') (ph : Nat) (code : Byte) (n : Word) :
    (callWaitNotBusy ph code n s).Alike W (callWaitNotBusy ph code n s') :=
  ((call_alike hW h ph _ fun _ _ ht => waitNotBusy_alike hW ht n).recode code).bind fun _ _ _ ht => ⟨rfl, ht⟩

theorem sendCommand_alike (h : Alike W s s') (op : Byte) (a : Option Addr24) :
    (sendCommand op a s).Alike W (sendCommand op a s') :=
  (callIssue_alike hW h 1 1 _).bind fun _ _ _ ht =>
    ((callWait_alike hW ht 2 maskTc true).orTimeout 1).bind fun _ _ _ hu => briClearTc_alike hW hu 3

theorem callSendCommand_alike (h : Alike W s s') (ph : Nat) (code op : Byte) (a : Option Addr24) :
    (callSendCommand ph code op a s).Alike W (callSendCommand ph code op a s') :=
  (call_alike hW h ph _ fun _ _ ht => sendCommand_alike hW ht op a).recode code

theorem latchPoll_alike : ∀ (n : Nat) {s s' : State}, Alike W s s' → (latchPoll n s).Alike W (latchPoll n s')
  | 0, _, _, h => ⟨rfl, rfl, h.mono fun _ _ _ => trivial⟩
  | n + 1, _, _, h => ((callReadStatus_alike hW h 2).recode 2).bind fun b t t' ht => by
      rw [ht.cfg]
      split
      · exact ⟨rfl, ht⟩
      · exact (tick_alike hW ht 3).bind fun _ u u' hu => latchPoll_alike n (hu.countTmoDev hW)

theorem writeEnable_alike (h : Alike W s s') : (writeEnable s).Alike W (writeEnable s') := by
  unfold writeEnable
  rw [h.cfg]
  exact (callSendCommand_alike hW h 1 1 _ none).bind fun _ t t' ht => by
    rw [ht.cfg]
    exact latchPoll_alike hW _ (ht.setTmoDev hW _)

theorem callWriteEnable_alike (h : Alike W s s') : (callWriteEnable s).Alike W (callWriteEnable s') :=
  (call_alike hW h 1 _ fun _ _ ht => writeEnable_alike hW ht).recode 1

theorem resetMemory_alike (h : Alike W s s') : (resetMemory s).Alike W (resetMemory s') := by
  unfold resetMemory
  rw [h.cfg]
  exact (callSendCommand_alike hW h 1 1 _ none).bind fun _ t t' ht => by
    rw [ht.cfg]
    exact (callSendCommand_alike hW ht 2 2 _ none).bind fun _ u u' hu => by
      rw [hu.cfg]
      exact callWaitNotBusy_alike hW hu 3 3 _

theorem chipErase_alike (h : Alike W s s') : (chipErase s).Alike W (chipErase s') :=
  (callWriteEnable_alike hW h).bind fun _ t t' ht => by
    rw [ht.cfg]
    exact (callSendCommand_alike hW ht 2 2 _ none).bind fun _ u u' hu => by
      rw [hu.cfg]
      exact callWaitNotBusy_alike hW hu 3 3 _

theorem eraseBlock_alike (h : Alike W s s') (a : Word) (op : Byte) (ms : Nat) :
    (eraseBlock a op ms s).Alike W (eraseBlock a op ms s') :=
  (callWriteEnable_alike hW h).bind fun _ t t' ht =>
    (callSendCommand_alike hW ht 2 2 op _).bind fun _ u u' hu => by
      rw [hu.cfg]
      exact (callWaitNotBusy_alike hW hu 3 3 _).bind fun _ v v' hv =>
        ((callWait_alike hW hv 4 maskBusy false).orTimeout 4).bind fun _ w w' hw => briClearAll_alike hW hw 5

theorem erase_alike (h : Alike W s s') (a : Word) (v : BlockSize) : (erase a v s).Alike W (erase a v s') := by
  unfold erase
  rw [h.cfg]
  cases v with
  | all => exact call_alike hW h 0 _ fun _ _ ht => chipErase_alike hW ht
  | b4K => exact eraseBlock_alike hW h a _ _
  | b32K => exact eraseBlock_alike hW h a _ _
  | b64K => exact eraseBlock_alike hW h a _ _

end Procedures

/-! ### The loops: the registers they read are written on entry -/

/-- `IDX` agrees. -/
theorem SameIdx.stable : Stable SameIdx := fun _ _ _ _ _ _ _ _ _ _ _ _ h => h

theorem readBytes_alike : ∀ (n : Nat) {s s' : State}, Alike SameIdx s s' →
    (readBytes n s).Alike SameIdx (readBytes n s')
  | 0, _, _, h => ⟨rfl, h⟩
  | n + 1, _, _, h => by
    refine ((callWait_alike SameIdx.stable h 4 maskFtTc true).orTimeout 2).bind fun _ t t' ht => ?_
    have hone : (readOneByte t).Alike SameIdx (readOneByte t') :=
      (briReadByte_alike SameIdx.stable ht 5).bind fun b u u' hu => by
        have hidx : u'.seq.idx = u.seq.idx := hu.working
        rw [hidx]
        exact ⟨rfl, (hu.hbufWrite _ b).working_regs (V := SameIdx) rfl⟩
    exact hone.bind fun _ u u' hu => readBytes_alike n hu

theorem read_alike {s s' : State} (h : Alike AnySeq s s') (a n : Word) : (read a n s).Alike AnySeq (read a n s') := by
  unfold read
  rw [h.cfg]
  split
  · exact ⟨rfl, h⟩
  · refine (callIssue_alike Stable.any h 1 1 _).bind fun _ t t' ht => ?_
    refine Res.Alike.bind (readBytes_alike n.toNat (ht.working_regs (V := SameIdx) rfl)) fun _ u u' hu => ?_
    exact ((callWait_alike SameIdx.stable hu 6 maskTc true).orTimeout 3).bind fun _ v v' hv =>
      (briClearTc_alike SameIdx.stable hv 7).mono fun _ _ _ => trivial

/-- The four registers of the program loop agree. -/
structure SameLoop (q q' : Seq) : Prop where
  curAddr : q'.curAddr = q.curAddr
  curSize : q'.curSize = q.curSize
  endAddr : q'.endAddr = q.endAddr
  bufOff : q'.bufOff = q.bufOff

/-- They and `IDX` agree. -/
structure SameLoopIdx (q q' : Seq) : Prop extends SameLoop q q' where
  idx : q'.idx = q.idx

theorem SameLoop.stable : Stable SameLoop := fun _ _ _ _ _ _ _ _ _ _ _ _ h => ⟨h.1, h.2, h.3, h.4⟩

theorem SameLoopIdx.stable : Stable SameLoopIdx := fun _ _ _ _ _ _ _ _ _ _ _ _ h => ⟨⟨h.1.1, h.1.2, h.1.3, h.1.4⟩, h.2⟩

theorem writeBytes_alike : ∀ (n : Nat) {s s' : State}, Alike SameLoopIdx s s' →
    (writeBytes n s).Alike SameLoopIdx (writeBytes n s')
  | 0, _, _, h => ⟨rfl, h⟩
  | n + 1, _, _, h => by
    refine ((callWait_alike SameLoopIdx.stable h 3 maskFt true).orTimeout 3).bind fun _ t t' ht => ?_
    have hone : (writeOneByte t).Alike SameLoopIdx (writeOneByte t') := by
      unfold writeOneByte hbufRead
      rw [ht.host, ht.working.bufOff, ht.working.idx]
      exact (briWriteByte_alike SameLoopIdx.stable ht 4 _).bind fun _ u u' hu =>
        ⟨rfl, hu.working_regs ⟨⟨hu.working.1.1, hu.working.1.2, hu.working.1.3, hu.working.1.4⟩,
          congrArg (· + 1) hu.working.idx⟩⟩
    exact hone.bind fun _ u u' hu => writeBytes_alike n hu

theorem writeChunk_alike {s s' : State} (h : Alike SameLoop s s') : (writeChunk s).Alike SameLoop (writeChunk s') := by
  refine (callWriteEnable_alike SameLoop.stable h).bind fun _ t t' ht => ?_
  rw [ht.cfg, ht.working.curAddr, ht.working.curSize]
  refine (callIssue_alike SameLoop.stable ht 2 2 _).bind fun _ u u' hu => ?_
  rw [hu.working.curSize]
  have hzero : Alike SameLoopIdx (setIdx 0 u) (setIdx 0 u') :=
    hu.working_regs ⟨⟨hu.working.1, hu.working.2, hu.working.3, hu.working.4⟩, rfl⟩
  refine ((writeBytes_alike _ hzero).mono fun _ _ h => h.toSameLoop).bind fun _ v v' hv => ?_
  refine ((callWait_alike SameLoop.stable hv 5 maskTc true).orTimeout 4).bind fun _ w w' hw => ?_
  refine (briClearTc_alike SameLoop.stable hw 6).bind fun _ x x' hx => ?_
  rw [hx.cfg]
  refine (callWaitNotBusy_alike SameLoop.stable hx 7 5 _).bind fun _ y y' hy => ⟨rfl, ?_⟩
  exact hy.working_regs ⟨by rw [hy.working.curAddr, hy.working.curSize],
    by rw [hy.cfg, hy.working.endAddr, hy.working.curAddr, hy.working.curSize], hy.working.endAddr,
    by rw [hy.working.bufOff, hy.working.curSize]⟩

theorem writeChunks_alike : ∀ (n : Nat) {s s' : State}, Alike SameLoop s s' →
    (writeChunks n s).Alike SameLoop (writeChunks n s')
  | 0, _, _, _ => rfl
  | n + 1, _, _, h => (writeChunk_alike h).bind fun _ t t' ht => by
      rw [ht.working.curAddr, ht.working.endAddr]
      split
      · exact writeChunks_alike n ht
      · exact ⟨rfl, ht⟩

theorem write_alike {s s' : State} (h : Alike AnySeq s s') (a n : Word) : (write a n s).Alike AnySeq (write a n s') := by
  unfold write
  rw [h.cfg]
  split
  · exact ⟨rfl, h⟩
  · exact (writeChunks_alike n.toNat (h.working_regs (V := SameLoop) ⟨rfl, rfl, rfl, rfl⟩)).mono fun _ _ _ => trivial

/-- The registers of the erase range agree. -/
structure SameErase (q q' : Seq) : Prop where
  erAddr : q'.erAddr = q.erAddr
  erEnd : q'.erEnd = q.erEnd

theorem SameErase.stable : Stable SameErase := fun _ _ _ _ _ _ _ _ _ _ _ _ h => ⟨h.1, h.2⟩

theorem eraseBlocks_alike : ∀ (n : Nat) {s s' : State}, Alike SameErase s s' →
    (eraseBlocks n s).Alike SameErase (eraseBlocks n s')
  | 0, _, _, h => by
    unfold eraseBlocks
    rw [h.working.erAddr, h.working.erEnd]
    split
    · exact ⟨rfl, h⟩
    · rfl
  | n + 1, _, _, h => by
    unfold eraseBlocks
    rw [h.working.erAddr, h.working.erEnd]
    split
    · exact ⟨rfl, h⟩
    · refine (call_alike SameErase.stable h 1 _ fun _ _ ht => erase_alike SameErase.stable ht _ _).bind fun _ t t' ht => ?_
      refine eraseBlocks_alike n (ht.working_regs (V := SameErase) ⟨?_, ht.working.erEnd⟩)
      rw [ht.working.erAddr, ht.cfg]

theorem abiEraseRange_alike {s s' : State} (h : Alike AnySeq s s') (x y : Word) :
    (abiEraseRange x y s).Alike AnySeq (abiEraseRange x y s') := by
  have hset : Alike SameErase (setErAddr (abiEraseStart s.cfg x) (setErEnd (abiMask s.cfg y) s))
      (setErAddr (abiEraseStart s.cfg x) (setErEnd (abiMask s.cfg y) s')) :=
    Alike.working_regs (h.working_regs (V := AnySeq) trivial) ⟨rfl, rfl⟩
  unfold abiEraseRange
  rw [h.cfg]
  exact (eraseBlocks_alike _ hset).mono fun _ _ _ => trivial

theorem initBus_alike {s s' : State} (h : Alike AnySeq s s') : (initBus s).Alike AnySeq (initBus s') := by
  unfold initBus
  rw [h.cfg]
  exact (briInit_alike Stable.any (h.setInited false) 1 _).bind fun _ t t' ht =>
    (briEnable_alike Stable.any ht 2).bind fun _ u u' hu =>
    (call_alike Stable.any hu 3 _ fun _ _ hv => resetMemory_alike Stable.any hv).bind fun _ v v' hv =>
      ⟨rfl, hv.setInited true⟩

theorem deinitBus_alike {s s' : State} (h : Alike AnySeq s s') : (deinitBus s).Alike AnySeq (deinitBus s') :=
  (briDisable_alike Stable.any h 1).bind fun _ _ _ ht => ⟨rfl, ht.setInited false⟩

/-! ### Every instruction -/

/-- The same outcome, in states that are alike. -/
def OutcomesAlike (o o' : Host.Outcome State Fault Refusal) : Prop :=
  match o, o' with
  | .next t, .next t' => Alike AnySeq t t'
  | .fault f, .fault f' => f' = f
  | .refused x, .refused x' => x' = x
  | _, _ => False

theorem finish_alike {α : Type} {W : Seq → Seq → Prop} (value : α → DWord) (code : Byte → Byte) {r r' : Res α}
    (h : r.Alike W r') : OutcomesAlike (finish value code r) (finish value code r') := by
  cases r <;> cases r' <;> try exact h.elim
  case ok.ok => obtain ⟨rfl, h⟩ := h; exact h.complete _ _ _
  case fail.fail c e t c' e' t' =>
    obtain ⟨rfl, rfl, h⟩ := h
    have hclean : (cleanup t).Alike AnySeq (cleanup t') :=
      call_alike Stable.any h 0 _ fun _ _ hu => briClearAll_alike Stable.any hu 1
    simp only [finish]
    generalize cleanup t = r at hclean ⊢
    generalize cleanup t' = r' at hclean ⊢
    cases r <;> cases r' <;> try exact hclean.elim
    case ok.ok => exact hclean.2.complete _ _ _
    case fail.fail => exact hclean.2.2.complete _ _ _
    all_goals exact hclean
  all_goals exact h

theorem gated_alike {s s' : State} (h : Alike AnySeq s s') {run : State → Host.Outcome State Fault Refusal}
    (hrun : OutcomesAlike (run s) (run s')) : OutcomesAlike (gated s run) (gated s' run) := by
  unfold gated
  rw [h.visible.inited]
  split
  · exact hrun
  · exact h.complete _ _ _

/-- A gated operation whose body ends alike. -/
theorem run_alike {α : Type} {s s' : State} (h : Alike AnySeq s s') (p : Proc) (value : α → DWord) (code : Byte → Byte)
    {body : State → Res α} (hbody : ∀ t t', Alike AnySeq t t' → (body t).Alike AnySeq (body t')) :
    OutcomesAlike (gated s fun s => finish value code (body (enterProc p s)))
      (gated s' fun s => finish value code (body (enterProc p s))) :=
  gated_alike h (run := fun s => finish value code (body (enterProc p s)))
    (finish_alike value code (hbody _ _ (h.enterProc Stable.any p)))

theorem flash_alike {i : Instr} (hi : isHostOp i = false) {s s' : State} (h : Alike AnySeq s s') :
    OutcomesAlike (exec i s) (exec i s') := by
  have hmove := flashExec_ends i s
  rw [exec_flash hi, exec_flash hi, h.eq_withSeq, flashExec_withSeq]
  cases hr : flashExec i s with
  | next t =>
    rw [hr] at hmove
    have hseq : t.seq = s.seq := hmove.seq
    exact ⟨rfl, rfl, rfl, rfl, rfl, hseq ▸ h.visible, trivial⟩
  | fault f => rfl
  | refused x => rfl

theorem exec_alike (i : Instr) {s s' : State} (h : Alike AnySeq s s') : OutcomesAlike (exec i s) (exec i s') := by
  have hA := Stable.any
  cases i with
  | readStatus => exact run_alike h .readStatus _ _ fun _ _ ht => readStatus_alike hA ht
  | waitNotBusy n => exact run_alike h .waitNotBusy _ _ fun _ _ ht => waitNotBusy_alike hA ht n
  | sendCommand op a => exact run_alike h .sendCommand _ _ fun _ _ ht => sendCommand_alike hA ht op _
  | writeEnable => exact run_alike h .writeEnable _ _ fun _ _ ht => writeEnable_alike hA ht
  | resetMemory => exact run_alike h .resetMemory _ _ fun _ _ ht => resetMemory_alike hA ht
  | read a n => exact run_alike h .read _ _ fun _ _ ht => read_alike ht a n
  | write a n => exact run_alike h .write _ _ fun _ _ ht => write_alike ht a n
  | erase a v => exact run_alike h .erase _ _ fun _ _ ht => erase_alike hA ht a v
  | chipErase => exact run_alike h .chipErase _ _ fun _ _ ht => chipErase_alike hA ht
  | initBus => exact finish_alike _ _ (initBus_alike (h.enterProc hA .initBus))
  | deinitBus => exact finish_alike _ _ (deinitBus_alike (h.enterProc hA .deinitBus))
  | abiInitialize =>
    exact finish_alike _ _ (call_alike hA (h.enterProc hA .abiInitialize) 1 _ fun _ _ ht => initBus_alike ht)
  | abiProgram a n =>
    exact run_alike h .abiProgram _ _ fun t t' ht => by
      unfold abiProgram
      rw [ht.cfg]
      exact call_alike hA ht 1 _ fun _ _ hu => write_alike hu _ n
  | abiEraseRange x y => exact run_alike h .abiEraseRange _ _ fun _ _ ht => abiEraseRange_alike ht x y
  | abiVerify => exact (h.enterProc hA .abiVerify).complete _ _ _
  | rdsr | wren | wrdi | rsten | rst | qread _ _ | qpp _ _ | se4k _ | be32k _ | be64k _ | ce => exact flash_alike rfl h

/-- Settles O45: alike states have alike outcomes. -/
theorem workingRegistersUnobservable : Obligations.WorkingRegistersUnobservable := by
  intro i s s' h
  have ho := exec_alike i ((sameButWorking_iff s s').mp h)
  refine ⟨fun t ht => ?_, fun f hf => ?_, fun x hx => ?_⟩
  · rw [ht] at ho
    cases ho' : exec i s' with
    | next t' => rw [ho'] at ho; exact ⟨t', rfl, (sameButWorking_iff t t').mpr ho⟩
    | fault f => rw [ho'] at ho; exact ho.elim
    | refused x => rw [ho'] at ho; exact ho.elim
  · rw [hf] at ho
    cases ho' : exec i s' with
    | next t' => rw [ho'] at ho; exact ho.elim
    | fault f' => rfl
    | refused x => rw [ho'] at ho; exact ho.elim
  · rw [hx] at ho
    cases ho' : exec i s' with
    | next t' => rw [ho'] at ho; exact ho.elim
    | fault f => rw [ho'] at ho; exact ho.elim
    | refused x' => rw [ho'] at ho; exact congrArg _ ho

end Sys2Proof.Machine
end

section
/-! Runs under ENV-ANY with no reset of SEQ to come (rule R211): every SEQ step is taken, so a procedure's end is a list of
calls and the registers, the host's buffer and the controller it leaves. -/

namespace Sys2Proof.Machine

/-! ### What a run can change -/

/-- What a run under ENV-ANY can change, the record of steps apart: SEQ's registers, but for the FSM state; the host's
buffer; the controller. -/
structure Local where
  regs : Seq
  hbuf : Mem
  bri : Bri

/-- These parts of a state. -/
def State.loc (s : State) : Local := { regs := { s.seq with pc := [] }, hbuf := s.host.hbuf, bri := s.bri }

/-- From `s` to `t` SEQ took the steps `l`, each with its answer; of the rest only the local parts changed. -/
structure Ran (l : List BusCall) (s t : State) : Prop where
  cfg : t.cfg = s.cfg
  dev : t.dev = s.dev
  script : t.host.script = s.host.script
  resetAt : t.host.resetAt = s.host.resetAt
  inputs : t.env.inputs = s.env.inputs.drop l.length
  now : t.env.now = s.env.now + l.length
  model : t.env.model = s.env.model
  frees : t.env.frees = s.env.frees
  trace : Continues s t
  calls : newCalls s t = l

section Ran

variable {l m : List BusCall} {s t u : State}

theorem Ran.of_env_eq (hc : t.cfg = s.cfg) (hd : t.dev = s.dev) (hs : t.host.script = s.host.script)
    (hr : t.host.resetAt = s.host.resetAt) (he : t.env = s.env) : Ran [] s t :=
  ⟨hc, hd, hs, hr, by rw [he]; rfl, by rw [he]; rfl, by rw [he], by rw [he], .of_trace_eq (by rw [he]),
    newCalls_of_trace_eq (by rw [he])⟩

theorem Ran.refl (s : State) : Ran [] s s := .of_env_eq rfl rfl rfl rfl rfl

theorem Ran.trans (h : Ran l s t) (k : Ran m t u) : Ran (l ++ m) s u where
  cfg := k.cfg.trans h.cfg
  dev := k.dev.trans h.dev
  script := k.script.trans h.script
  resetAt := k.resetAt.trans h.resetAt
  inputs := by rw [k.inputs, h.inputs, List.drop_drop, List.length_append]
  now := by rw [k.now, h.now, List.length_append, Nat.add_assoc]
  model := k.model.trans h.model
  frees := k.frees.trans h.frees
  trace := h.trace.trans k.trace
  calls := by rw [newCalls_trans h.trace k.trace, h.calls, k.calls]

theorem Ran.undisturbed (h : Ran l s t) (hu : Undisturbed s) : Undisturbed t :=
  ⟨h.model.trans hu.1, h.resetAt.trans hu.2⟩

/-- The answers to come after a run are those after its steps. -/
theorem Ran.drawAt (h : Ran l s t) (j : Nat) : drawAt t j = drawAt s (l.length + j) := by
  rw [Machine.drawAt, Machine.drawAt, h.inputs, h.now, List.drop_drop, Nat.add_assoc]

theorem Ran.inputByte (h : Ran l s t) (j : Nat) : inputByte t j = inputByte s (l.length + j) := by
  rw [Machine.inputByte, Machine.inputByte, h.drawAt]

theorem Ran.answers (h : Ran l s t) (ns : List Need) : ∀ k, answers t k ns = answers s (l.length + k) ns := by
  induction ns with
  | nil => exact fun _ => rfl
  | cons n ns ih =>
    intro k
    rw [answers_cons, answers_cons, h.cfg, h.drawAt, ih, Nat.add_assoc]

/-- One step, with a new value of the controller. -/
theorem Ran.step (ph : Nat) (c : BusCall) (s : State) (b : Bri) : Ran [c] s ((stepped ph c s).withBri b) where
  cfg := rfl
  dev := rfl
  script := rfl
  resetAt := rfl
  inputs := List.drop_one.symm
  now := rfl
  model := rfl
  frees := rfl
  trace := ⟨[_], rfl⟩
  calls := newCalls_of_trace_cons rfl

end Ran

/-! ### The answers a run uses up -/

section Answered

variable {ns ms : List Need} {l : List BusCall} {s t : State}

theorem Answered.left (h : Answered (ns ++ ms) s) : Answered ns s :=
  ⟨h.1, h.2.1, (Bool.and_eq_true _ _ ▸ answers_append s 0 ns ms ▸ h.2.2).1⟩

/-- After a run with a step for each need, the answers give what is looked for next. -/
theorem Answered.after (h : Answered (ns ++ ms) s) (hr : Ran l s t) (hl : l.length = ns.length) : Answered ms t := by
  obtain ⟨hu, hb, ha⟩ := h
  rw [answers_append, Bool.and_eq_true] at ha
  refine ⟨hr.undisturbed hu, hr.cfg.symm ▸ hb, ?_⟩
  rw [hr.answers, hl, Nat.add_zero, ← Nat.zero_add ns.length]
  exact ha.2

/-- The same answers, before any step. -/
theorem Answered.start (h : Answered ns s) (hr : Ran [] s t) : Answered ns t := Answered.after (ns := []) h hr rfl

/-- The need of a single step. -/
theorem Answered.need {n : Need} (h : Answered (n :: ns) s) : n.met s.cfg (drawAt s 0) = true :=
  (Bool.and_eq_true _ _ ▸ h.2.2).1

theorem Answered.cast (h : Answered ns s) (e : ns = ms) : Answered ms s := e ▸ h

end Answered

/-! ### Results with their calls -/

/-- `Ok` with the value, after the calls `l`, in a state with local parts as `P` says. -/
def Res.Runs {α : Type} (r : Res α) (s : State) (a : α) (l : List BusCall) (P : Local → Prop) : Prop :=
  ∃ t, r = .ok a t ∧ Ran l s t ∧ P t.loc

/-- What is claimed of a list of calls: its length, its frames, its ticks and the bytes it writes. -/
structure Tally where
  steps : Nat
  frames : List Txn
  ticks : Nat
  bytes : List Byte

def tally (l : List BusCall) : Tally :=
  { steps := l.length, frames := framesOf l, ticks := tickCount l, bytes := bytesWritten l }

def Tally.add (T U : Tally) : Tally :=
  { steps := T.steps + U.steps, frames := T.frames ++ U.frames, ticks := T.ticks + U.ticks, bytes := T.bytes ++ U.bytes }

theorem tally_append (l m : List BusCall) : tally (l ++ m) = (tally l).add (tally m) := by
  simp [tally, Tally.add, framesOf_append, tickCount_append, bytesWritten_append]

theorem length_eq_steps {l : List BusCall} {T : Tally} (h : tally l = T) : l.length = T.steps := congrArg Tally.steps h

/-- `Ok` with the value, after calls of which the tally is `T`. -/
def Res.Does {α : Type} (r : Res α) (s : State) (a : α) (T : Tally) (P : Local → Prop) : Prop :=
  ∃ l, tally l = T ∧ r.Runs s a l P

/-- A failure, after calls of which the tally is `T`. -/
def Res.Stops {α : Type} (r : Res α) (s : State) (code : Byte) (cause : Cause) (T : Tally) (P : Local → Prop) : Prop :=
  ∃ l t, tally l = T ∧ r = .fail code cause t ∧ Ran l s t ∧ P t.loc

section Results

variable {α β : Type} {r : Res α} {s : State} {a : α} {l m : List BusCall} {P Q : Local → Prop} {T U : Tally}

theorem Res.Runs.bind {k : α → State → Res β} {b : β} (h : r.Runs s a l P)
    (hk : ∀ t, Ran l s t → P t.loc → (k a t).Runs t b m Q) : (r.bind k).Runs s b (l ++ m) Q := by
  obtain ⟨t, rfl, hr, hp⟩ := h
  obtain ⟨u, hu, hr', hq⟩ := hk t hr hp
  exact ⟨u, hu, hr.trans hr', hq⟩

theorem Res.Runs.does (h : r.Runs s a l P) (hT : tally l = T) : r.Does s a T P := ⟨l, hT, h⟩

theorem Res.Does.mono (h : r.Does s a T P) (hpq : ∀ q, P q → Q q) : r.Does s a T Q := by
  obtain ⟨l, hl, t, hr, hrun, hp⟩ := h
  exact ⟨l, hl, t, hr, hrun, hpq _ hp⟩

theorem Res.Does.cast (h : r.Does s a T P) (hT : T = U) : r.Does s a U P := hT ▸ h

theorem Res.Stops.mono {code : Byte} {cause : Cause} (h : r.Stops s code cause T P) (hpq : ∀ q, P q → Q q) :
    r.Stops s code cause T Q := by
  obtain ⟨l, t, hl, hr, hrun, hp⟩ := h
  exact ⟨l, t, hl, hr, hrun, hpq _ hp⟩

/-- No step. -/
theorem Res.Does.ok (a : α) (hp : P s.loc) : (Res.ok a s).Does s a ⟨0, [], 0, []⟩ P := ⟨[], rfl, s, rfl, .refl s, hp⟩

/-- One part after another. -/
theorem Res.Does.bind {k : α → State → Res β} {b : β} (h : r.Does s a T P)
    (hk : ∀ l t, tally l = T → Ran l s t → P t.loc → (k a t).Does t b U Q) : (r.bind k).Does s b (T.add U) Q := by
  obtain ⟨l, hl, t, rfl, hr, hp⟩ := h
  obtain ⟨m, hm, hrun⟩ := hk l t hl hr hp
  obtain ⟨u, hu, hr', hq⟩ := hrun
  exact ⟨l ++ m, by rw [tally_append, hl, hm], u, hu, hr.trans hr', hq⟩

/-- A part that fails after one that does not. -/
theorem Res.Does.bind_stops {k : α → State → Res β} {code : Byte} {cause : Cause} (h : r.Does s a T P)
    (hk : ∀ l t, tally l = T → Ran l s t → P t.loc → (k a t).Stops t code cause U Q) :
    (r.bind k).Stops s code cause (T.add U) Q := by
  obtain ⟨l, hl, t, rfl, hr, hp⟩ := h
  obtain ⟨m, u, hm, hu, hr', hq⟩ := hk l t hl hr hp
  exact ⟨l ++ m, u, by rw [tally_append, hl, hm], hu, hr.trans hr', hq⟩

/-- A part that fails ends the whole. -/
theorem Res.Stops.bind {k : α → State → Res β} {code : Byte} {cause : Cause} (h : r.Stops s code cause T P) :
    (r.bind k).Stops s code cause T P := by
  obtain ⟨l, t, hl, rfl, hr, hp⟩ := h
  exact ⟨l, t, hl, rfl, hr, hp⟩

/-- A part that starts after a register write. -/
theorem Res.Does.after {t : State} (h : r.Does t a T P) (hr : Ran [] s t) : r.Does s a T P := by
  obtain ⟨l, hl, u, rfl, hru, hp⟩ := h
  exact ⟨l, hl, u, rfl, hr.trans hru, hp⟩

theorem Res.Stops.after {t : State} {code : Byte} {cause : Cause} (h : r.Stops t code cause T P) (hr : Ran [] s t) :
    r.Stops s code cause T P := by
  obtain ⟨l, u, hl, rfl, hru, hp⟩ := h
  exact ⟨l, u, hl, rfl, hr.trans hru, hp⟩

theorem Res.Does.recode (h : r.Does s a T P) (c : Byte) : (r.recode c).Does s a T P := by
  obtain ⟨l, hl, t, rfl, hr, hp⟩ := h
  exact ⟨l, hl, t, rfl, hr, hp⟩

theorem Res.Stops.recode {code : Byte} {cause : Cause} (h : r.Stops s code cause T P) (c : Byte) :
    (r.recode c).Stops s c cause T P := by
  obtain ⟨l, t, hl, rfl, hr, hp⟩ := h
  exact ⟨l, t, hl, rfl, hr, hp⟩

theorem Ran.push (ph : Nat) (p : Proc) (s : State) : Ran [] s (pushProc p (setPhase ph s)) := .of_env_eq rfl rfl rfl rfl rfl

theorem loc_push (ph : Nat) (p : Proc) (s : State) : (pushProc p (setPhase ph s)).loc = s.loc := rfl

/-- A call: the FSM stack is no local part. -/
theorem Res.Does.call {ph : Nat} {p : Proc} {body : State → Res α}
    (h : ∀ t, Ran [] s t → t.loc = s.loc → (body t).Does t a T P) : (Machine.call ph p s body).Does s a T P := by
  obtain ⟨l, hl, t, ht, hr, hp⟩ := (h _ (.push ph p s) rfl).after (.push ph p s)
  exact ⟨l, hl, popProc t, by rw [Machine.call, ht]; rfl,
    by simpa using hr.trans (.of_env_eq (t := popProc t) rfl rfl rfl rfl rfl), hp⟩

theorem Res.Stops.call {ph : Nat} {p : Proc} {body : State → Res α} {code : Byte} {cause : Cause}
    (h : ∀ t, Ran [] s t → t.loc = s.loc → (body t).Stops t code cause T P) :
    (Machine.call ph p s body).Stops s code cause T P := by
  obtain ⟨l, t, hl, ht, hr, hp⟩ := (h _ (.push ph p s) rfl).after (.push ph p s)
  exact ⟨l, popProc t, hl, by rw [Machine.call, ht]; rfl,
    by simpa using hr.trans (.of_env_eq (t := popProc t) rfl rfl rfl rfl rfl), hp⟩

theorem Res.Runs.call {ph : Nat} {p : Proc} {body : State → Res α}
    (h : ∀ t, Ran [] s t → t.loc = s.loc → (body t).Runs t a l P) : (Machine.call ph p s body).Runs s a l P := by
  obtain ⟨t, ht, hr, hp⟩ := h _ (.push ph p s) rfl
  refine ⟨popProc t, by rw [Machine.call, ht]; rfl, ?_, hp⟩
  simpa using (Ran.push ph p s).trans (hr.trans (.of_env_eq (t := popProc t) rfl rfl rfl rfl rfl))

/-- A wait that is met, where its expiry would be a failure. -/
theorem Res.Runs.orTimeout {r : Res Waited} (h : r.Runs s .met l P) (c : Byte) : (r.orTimeout c).Runs s () l P := by
  obtain ⟨t, rfl, hr, hp⟩ := h
  exact ⟨t, rfl, hr, hp⟩

/-- A wait that expires. -/
theorem Res.Does.timeout {r : Res Waited} (h : r.Does s .timeout T P) (c : Byte) :
    (r.orTimeout c).Stops s c .busTimeout T P := by
  obtain ⟨l, hl, t, rfl, hr, hp⟩ := h
  exact ⟨l, t, hl, rfl, hr, hp⟩

end Results

/-! ### The primitives -/

section Primitives

variable {s : State} (hu : Undisturbed s) (ph : Nat)
include hu

theorem tick_runs : (tick ph s).Runs s () [.tick] (· = s.loc) := ⟨_, tick_any ph hu, .step ph _ s s.bri, rfl⟩

theorem briFlags_runs : (briFlags ph s).Runs s (drawAt s 0).flags [.flags (drawAt s 0).flags] (· = s.loc) :=
  ⟨_, briFlags_any ph hu, .step ph _ s s.bri, rfl⟩

theorem briConfigure_runs (x : Txn) :
    (briConfigure ph x s).Runs s () [.configure x] (· = { s.loc with bri := { s.bri with cfg := x } }) :=
  ⟨_, briConfigure_any ph hu x, .step ph _ s _, rfl⟩

theorem briTrigger_runs : (briTrigger ph s).Runs s () [.trigger] (· = s.loc) :=
  ⟨_, briTrigger_any ph hu, .step ph _ s s.bri, rfl⟩

theorem briClearTc_runs : (briClearTc ph s).Runs s () [.clearTc] (· = s.loc) :=
  ⟨_, briClearTc_any ph hu, .step ph _ s s.bri, rfl⟩

theorem briClearAll_runs : (briClearAll ph s).Runs s () [.clearAll] (· = s.loc) :=
  ⟨_, briClearAll_any ph hu, .step ph _ s s.bri, rfl⟩

theorem briReadByte_runs : (briReadByte ph s).Runs s (inputByte s 0) [.readByte (inputByte s 0)] (· = s.loc) :=
  ⟨_, briReadByte_any ph hu, .step ph _ s s.bri, rfl⟩

theorem briWriteByte_runs (v : Byte) : (briWriteByte ph v s).Runs s () [.writeByte v] (· = s.loc) :=
  ⟨_, briWriteByte_any ph hu v, .step ph _ s s.bri, rfl⟩

theorem briInit_runs (f : BusInit) :
    (briInit ph f s).Runs s () [.init f] (· = { s.loc with bri := { s.bri with init := f } }) :=
  ⟨_, briInit_any ph hu f, .step ph _ s _, rfl⟩

theorem briEnable_runs : (briEnable ph s).Runs s () [.enable] (· = { s.loc with bri := { s.bri with en := true } }) :=
  ⟨_, briEnable_any ph hu, .step ph _ s _, rfl⟩

theorem cleanup_runs : (cleanup s).Runs s () [.clearAll] (· = s.loc) :=
  Res.Runs.call fun t hr hl => by
    have h := briClearAll_runs (hr.undisturbed hu) 1
    rwa [hl] at h

end Primitives

/-! ### The end of an operation -/

/-- The operation ended in `t` after calls with the tally `T`, the local parts as in `q` but for the registers `regs`. -/
structure Ended (T : Tally) (regs : Seq) (q : Local) (s t : State) : Prop where
  ran : ∃ l, tally l = T ∧ Ran l s t
  seq : t.seq = regs
  hbuf : t.host.hbuf = q.hbuf
  bri : t.bri = q.bri

section End

variable {α : Type} {s t : State} {r : Res α} {a : α} {T : Tally} {P : Local → Prop}

theorem Ran.tookSteps {l : List BusCall} (h : Ran l s t) : tookSteps l.length s t :=
  ⟨h.inputs, h.now, h.model, h.frees, by rw [newEntries_length, h.calls], h.trace.eq⟩

theorem Ran.tookSteps_tally {l : List BusCall} (h : Ran l s t) (hl : tally l = T) : Machine.tookSteps T.steps s t :=
  length_eq_steps hl ▸ h.tookSteps

theorem Ran.sameSurroundings {l : List BusCall} (h : Ran l s t) (hb : t.host.hbuf = s.host.hbuf) : sameSurroundings s t := by
  refine ⟨h.cfg, h.dev, ?_⟩
  have h1 := h.script
  have h2 := h.resetAt
  cases hs : s.host
  cases ht : t.host
  rw [hs, ht] at h1 h2 hb
  simp only at h1 h2 hb
  subst h1 h2 hb
  rfl

/-- What an ended operation's record says. -/
theorem Ended.tookSteps {regs : Seq} {q : Local} (h : Ended T regs q s t) : tookSteps T.steps s t := by
  obtain ⟨l, hl, hr⟩ := h.ran
  exact hr.tookSteps_tally hl

theorem Ended.tally {regs : Seq} {q : Local} (h : Ended T regs q s t) : tally (newCalls s t) = T := by
  obtain ⟨l, hl, hr⟩ := h.ran
  rw [hr.calls, hl]

theorem Ended.frames {regs : Seq} {q : Local} (h : Ended T regs q s t) : newFrames s t = T.frames :=
  congrArg Tally.frames h.tally

theorem Ended.ticks {regs : Seq} {q : Local} (h : Ended T regs q s t) : tickCount (newCalls s t) = T.ticks :=
  congrArg Tally.ticks h.tally

theorem Ended.bytes {regs : Seq} {q : Local} (h : Ended T regs q s t) : bytesWritten (newCalls s t) = T.bytes :=
  congrArg Tally.bytes h.tally

theorem Ended.sameSurroundings {regs : Seq} {q : Local} (h : Ended T regs q s t) (hq : q.hbuf = s.host.hbuf) :
    sameSurroundings s t := by
  obtain ⟨l, _, hr⟩ := h.ran
  exact hr.sameSurroundings (h.hbuf.trans hq)

/-- The completing step changes SEQ's registers only. -/
theorem Ran.complete {l : List BusCall} (h : Ran l s t) (code : Byte) (cause : Cause) (value : DWord) :
    Ran l s (complete code cause value t) := by
  simpa using h.trans (.of_env_eq (t := Machine.complete code cause value t) rfl rfl rfl rfl rfl)

theorem finish_runs {l : List BusCall} (value : α → DWord) (code : Byte → Byte) (h : r.Runs s a l P) :
    ∃ t q, finish value code r = .next t ∧ P q ∧ Ended (Machine.tally l) (okSeq (value a) q.regs) q s t ∧ newCalls s t = l := by
  obtain ⟨u, rfl, hr, hp⟩ := h
  have hran := hr.complete 0 .none (value a)
  exact ⟨_, u.loc, rfl, hp, ⟨⟨l, rfl, hran⟩, rfl, rfl, rfl⟩, hran.calls⟩

theorem finish_does (value : α → DWord) (code : Byte → Byte) (h : r.Does s a T P) :
    ∃ t q, finish value code r = .next t ∧ P q ∧ Ended T (okSeq (value a) q.regs) q s t := by
  obtain ⟨l, rfl, hrun⟩ := h
  obtain ⟨t, q, ht, hp, hend, _⟩ := finish_runs value code hrun
  exact ⟨t, q, ht, hp, hend⟩

/-- A failure takes one more step, CLEANUP's, the last (rule R235). -/
theorem finish_stops (hu : Undisturbed s) (value : α → DWord) (code : Byte → Byte) {c : Byte} {e : Cause}
    (h : r.Stops s c e T P) :
    ∃ t q, finish value code r = .next t ∧ P q ∧ Ended (T.add ⟨1, [], 0, []⟩) (failSeq (code c) e q.regs) q s t
      ∧ (newCalls s t).getLast? = some .clearAll := by
  obtain ⟨l, u, hl, rfl, hr, hp⟩ := h
  obtain ⟨v, hv, hrv, hq⟩ := cleanup_runs (hr.undisturbed hu)
  have hran := (hr.trans hrv).complete (code c) e 0
  have hregs : (complete (code c) e 0 v).seq = failSeq (code c) e v.loc.regs := rfl
  refine ⟨complete (code c) e 0 v, u.loc, by simp only [finish, hv], hp, ⟨⟨_, ?_, hran⟩, by rw [hregs, hq], ?_, ?_⟩, ?_⟩
  · rw [tally_append, hl]
    rfl
  · exact congrArg Local.hbuf hq
  · exact congrArg Local.bri hq
  · rw [hran.calls, List.getLast?_concat]

end End

theorem loc_enter (p : Proc) (s : State) : (enterProc p s).loc = s.loc := rfl

theorem Ran.enter (p : Proc) (s : State) : Ran [] s (enterProc p s) := .of_env_eq rfl rfl rfl rfl rfl

/-- A gated operation that runs to its end, with its calls. -/
theorem run_runs {α : Type} {s : State} {i : Instr} {p : Proc} {value : α → DWord} {code : Byte → Byte} {body : State → Res α}
    {a : α} {l : List BusCall} {P : Local → Prop}
    (hexec : exec i s = gated s fun s => finish value code (body (enterProc p s))) (hi : s.seq.inited = true)
    (h : ∀ t, Ran [] s t → t.loc = s.loc → (body t).Runs t a l P) :
    ∃ t q, exec i s = .next t ∧ P q ∧ Ended (tally l) (okSeq (value a) q.regs) q s t ∧ newCalls s t = l := by
  obtain ⟨u, hu, hr, hp⟩ := h _ (.enter p s) rfl
  rw [hexec, gated_open hi]
  exact finish_runs value code ⟨u, hu, (Ran.enter p s).trans hr, hp⟩

/-- A gated operation that runs to its end. -/
theorem run_does {α : Type} {s : State} {i : Instr} {p : Proc} {value : α → DWord} {code : Byte → Byte} {body : State → Res α}
    {a : α} {T : Tally} {P : Local → Prop} (hexec : exec i s = gated s fun s => finish value code (body (enterProc p s)))
    (hi : s.seq.inited = true) (h : ∀ t, Ran [] s t → t.loc = s.loc → (body t).Does t a T P) :
    ∃ t q, exec i s = .next t ∧ P q ∧ Ended T (okSeq (value a) q.regs) q s t := by
  rw [hexec, gated_open hi]
  exact finish_does value code ((h _ (.enter p s) rfl).after (.enter p s))

/-- A gated operation that fails. -/
theorem run_stops {α : Type} {s : State} {i : Instr} {p : Proc} {value : α → DWord} {code : Byte → Byte} {body : State → Res α}
    {c : Byte} {e : Cause} {T : Tally} {P : Local → Prop}
    (hexec : exec i s = gated s fun s => finish value code (body (enterProc p s))) (hi : s.seq.inited = true)
    (hu : Undisturbed s) (h : ∀ t, Ran [] s t → t.loc = s.loc → (body t).Stops t c e T P) :
    ∃ t q, exec i s = .next t ∧ P q ∧ Ended (T.add ⟨1, [], 0, []⟩) (failSeq (code c) e q.regs) q s t
      ∧ (newCalls s t).getLast? = some .clearAll := by
  rw [hexec, gated_open hi]
  exact finish_stops hu value code ((h _ (.enter p s) rfl).after (.enter p s))

end Sys2Proof.Machine
end

section
/-! Runs of the waits, of ISSUE, of the status poller and of the protocol layer under ENV-ANY (rules R12, R121, R122, R131 to
R133, R218, R219). -/

namespace Sys2Proof.Machine

/-! ### Local parts -/

def Local.setBus (n : Word) (q : Local) : Local := { q with regs := { q.regs with tmoBus := n } }
def Local.setDev (n : Word) (q : Local) : Local := { q with regs := { q.regs with tmoDev := n } }

/-- After a frame `x` whose waits had `n` of their budget left. -/
def Local.framed (x : Txn) (n : Word) (q : Local) : Local :=
  { q with regs := { q.regs with txn := x, tmoBus := n }, bri := { q.bri with cfg := x } }

/-- After a status read that found `b`. -/
def Local.polled (c : Cfg) (b : Byte) (q : Local) : Local :=
  { q with regs := { q.regs with txn := txnRdsr c, tmoBus := c.busWaitTicks, srSnap := b }
           bri := { q.bri with cfg := txnRdsr c } }

theorem seq_of_loc {t : State} {q : Local} (h : t.loc = q) : t.seq = { q.regs with pc := t.seq.pc } := by
  rw [← h]
  rfl

theorem Res.Runs.cast {α : Type} {r : Res α} {s : State} {a : α} {l m : List BusCall} {P : Local → Prop}
    (h : r.Runs s a l P) (e : l = m) : r.Runs s a m P := e ▸ h

/-! ### WAIT_FLAG (rule R218) -/

theorem sub_one_sub_ofNat (x : Word) (j : Nat) : x - 1 - BitVec.ofNat 32 j = x - BitVec.ofNat 32 (j + 1) := by
  rw [BitVec.ofNat_add, BitVec.sub_sub, BitVec.add_comm]
  rfl

section Wait

variable {s : State} {mask : FlagSet} {e : Bool}

/-- A turn of the wait whose sample does not meet the condition: sample, tick, decrement. -/
theorem waitFlagLoop_turn {n : Nat} {w : Waited} {T : Tally} {P : Local → Prop} (hu : Undisturbed s)
    (hf : flagsMet mask e (drawAt s 0).flags = false)
    (h : ∀ l t, l.length = 2 → Ran l s t → t.loc = s.loc.setBus (s.loc.regs.tmoBus - 1) →
      (waitFlagLoop mask e n t).Does t w T P) :
    (waitFlagLoop mask e (n + 1) s).Does s w (Tally.add ⟨2, [], 1, []⟩ T) P := by
  have hflags := (briFlags_runs hu 1).does rfl
  refine (Res.Does.bind (U := Tally.add ⟨1, [], 1, []⟩ T) hflags fun l t hl hr ht => ?_).cast ?_
  · rw [if_neg (by simp [hf])]
    refine ((tick_runs (hr.undisturbed hu) 2).does rfl).bind fun m u hm hru hu' => ?_
    have hc : Ran [] u (countTmoBus u) := .of_env_eq rfl rfl rfl rfl rfl
    refine Res.Does.after (h (l ++ m ++ []) (countTmoBus u) ?_ ((hr.trans hru).trans hc) ?_) hc
    · simp [length_eq_steps hl, length_eq_steps hm, tally]
    · rw [← ht, ← hu']
      rfl
  · simp [Tally.add, tally, framesOf, tickCount, bytesWritten]
    omega

/-- The answers two steps on. -/
theorem Ran.drawAt_two {l : List BusCall} {t : State} (h : Ran l s t) (hl : l.length = 2) (k : Nat) :
    Machine.drawAt t (2 * k) = Machine.drawAt s (2 * (k + 1)) := by
  rw [h.drawAt, hl, Nat.mul_succ, Nat.add_comm]

/-- The condition is met at sample `j`, within the budget. -/
theorem waitFlagLoop_runs_met {j : Nat} : ∀ {n : Nat} {s : State}, Undisturbed s → j < n →
    (∀ k, k < j → flagsMet mask e (drawAt s (2 * k)).flags = false) → flagsMet mask e (drawAt s (2 * j)).flags = true →
    (waitFlagLoop mask e n s).Does s .met ⟨2 * j + 1, [], j, []⟩
      (· = s.loc.setBus (s.loc.regs.tmoBus - BitVec.ofNat 32 j)) := by
  induction j with
  | zero =>
    intro n s hu hj _ hf
    obtain ⟨n, rfl⟩ := Nat.exists_eq_succ_of_ne_zero hj.ne'
    obtain ⟨t, ht, hr, hl⟩ := briFlags_runs hu 1
    refine ⟨_, rfl, t, ?_, hr, ?_⟩
    · rw [waitFlagLoop, ht, Res.bind_ok, if_pos hf]
    · rw [hl]
      simp [Local.setBus]
  | succ j ih =>
    intro n s hu hj hno hf
    obtain ⟨n, rfl⟩ := Nat.exists_eq_succ_of_ne_zero (Nat.ne_zero_of_lt hj)
    refine (waitFlagLoop_turn (T := ⟨2 * j + 1, [], j, []⟩) hu (hno 0 (Nat.succ_pos j)) fun l t hl hr ht => ?_).cast ?_
    · refine (ih (n := n) (s := t) (hr.undisturbed hu) (Nat.lt_of_succ_lt_succ hj) (fun k hk => ?_) ?_).mono fun q hq => ?_
      · rw [hr.drawAt_two hl]
        exact hno (k + 1) (Nat.succ_lt_succ hk)
      · rw [hr.drawAt_two hl]
        exact hf
      · rw [hq, ht, ← sub_one_sub_ofNat]
        rfl
    · simp [Tally.add]
      omega

/-- No sample of the budget meets the condition. -/
theorem waitFlagLoop_runs_out {n : Nat} : ∀ {s : State}, Undisturbed s →
    (∀ k, k < n → flagsMet mask e (drawAt s (2 * k)).flags = false) →
    (waitFlagLoop mask e n s).Does s .timeout ⟨2 * n, [], n, []⟩
      (· = s.loc.setBus (s.loc.regs.tmoBus - BitVec.ofNat 32 n)) := by
  induction n with
  | zero => exact fun _ _ => .ok _ (by simp [Local.setBus])
  | succ n ih =>
    intro s hu hno
    refine (waitFlagLoop_turn (T := ⟨2 * n, [], n, []⟩) hu (hno 0 (Nat.succ_pos n)) fun l t hl hr ht => ?_).cast ?_
    · refine (ih (s := t) (hr.undisturbed hu) fun k hk => ?_).mono fun q hq => ?_
      · rw [hr.drawAt_two hl]
        exact hno (k + 1) (Nat.succ_lt_succ hk)
      · rw [hq, ht, ← sub_one_sub_ofNat]
        rfl
    · simp [Tally.add]
      omega

end Wait

/-- Settles O18: by induction on the sample that meets the condition, and on the budget. -/
theorem waitFlagCounts : Obligations.WaitFlagCounts := by
  intro mask e n s hu
  have hset : Ran [] s (setTmoBus n s) := .of_env_eq rfl rfl rfl rfl rfl
  refine ⟨fun j hj hno hf => ?_, fun hno => ?_⟩
  · obtain ⟨l, hl, t, ht, hr, hloc⟩ := (waitFlagLoop_runs_met (s := setTmoBus n s) hu hj hno hf).after hset
    refine ⟨t, ht, seq_of_loc hloc, congrArg Local.bri hloc, hr.sameSurroundings (congrArg Local.hbuf hloc), ?_, ?_⟩
    · exact hr.tookSteps_tally hl
    · rw [hr.calls]
      exact congrArg Tally.ticks hl
  · obtain ⟨l, hl, t, ht, hr, hloc⟩ := (waitFlagLoop_runs_out (s := setTmoBus n s) hu hno).after hset
    refine ⟨t, ht, ?_, congrArg Local.bri hloc, hr.sameSurroundings (congrArg Local.hbuf hloc), ?_, ?_⟩
    · have hzero : n - BitVec.ofNat 32 n.toNat = 0 := by simp
      have hseq := seq_of_loc hloc
      rwa [show (setTmoBus n s).loc.setBus ((setTmoBus n s).loc.regs.tmoBus - BitVec.ofNat 32 n.toNat)
        = (setTmoBus n s).loc.setBus 0 from congrArg (Local.setBus · _) hzero] at hseq
    · exact hr.tookSteps_tally hl
    · rw [hr.calls]
      exact congrArg Tally.ticks hl

/-! ### Waits of a procedure -/

section CallWait

variable {s : State} {mask : FlagSet} {e : Bool}

/-- The conditions of the waits, as what SEQ looks for in an answer. -/
theorem busIdle_met (c : Cfg) (d : Draw) : Need.busIdle.met c d = flagsMet maskBusy false d.flags := by
  cases h : d.flags.busy <;> simp [Need.met, flagsMet, someFlag, maskBusy, h]

theorem complete_met (c : Cfg) (d : Draw) : Need.complete.met c d = flagsMet maskTc true d.flags := by
  simp [Need.met, flagsMet, someFlag, maskTc]

theorem room_met (c : Cfg) (d : Draw) : Need.room.met c d = flagsMet maskFt true d.flags := by
  simp [Need.met, flagsMet, someFlag, maskFt]

theorem ready_met (c : Cfg) (d : Draw) : Need.ready.met c d = flagsMet maskFtTc true d.flags := by
  simp [Need.met, flagsMet, someFlag, maskFtTc, Bool.or_comm]

/-- A wait that ends at its first sample. -/
theorem callWait_runs {n : Need} {ns : List Need} (h : Answered (n :: ns) s)
    (hn : ∀ c d, n.met c d = flagsMet mask e d.flags) (ph : Nat) :
    (callWait ph mask e s).Runs s .met [.flags (drawAt s 0).flags] (· = s.loc.setBus s.cfg.busWaitTicks) := by
  obtain ⟨k, hk⟩ := Nat.exists_eq_succ_of_ne_zero (fun z => h.2.1 (BitVec.eq_of_toNat_eq (by simpa using z)) :
    s.cfg.busWaitTicks.toNat ≠ 0)
  refine Res.Runs.call fun t hr hl => ?_
  have hset : Ran [] t (setTmoBus s.cfg.busWaitTicks t) := .of_env_eq rfl rfl rfl rfl rfl
  obtain ⟨u, hu, hru, hlu⟩ := briFlags_runs (s := setTmoBus s.cfg.busWaitTicks t) (hr.undisturbed h.1) 1
  have hdraw : drawAt (setTmoBus s.cfg.busWaitTicks t) 0 = drawAt s 0 := (hr.trans hset).drawAt 0
  rw [hdraw] at hu hru
  refine ⟨u, ?_, hset.trans hru, by rw [hlu, ← hl]; rfl⟩
  rw [waitFlag, hk, waitFlagLoop, hu, Res.bind_ok, if_pos (hn s.cfg _ ▸ h.need)]

/-- A wait that uses up the bus budget. -/
theorem callWait_out (hu : Undisturbed s) (ph : Nat)
    (hno : ∀ j, j < s.cfg.busWaitTicks.toNat → flagsMet mask e (drawAt s (2 * j)).flags = false) :
    (callWait ph mask e s).Does s .timeout ⟨2 * s.cfg.busWaitTicks.toNat, [], s.cfg.busWaitTicks.toNat, []⟩
      (· = s.loc.setBus 0) := by
  refine Res.Does.call fun t hr hl => ?_
  have hset : Ran [] t (setTmoBus s.cfg.busWaitTicks t) := .of_env_eq rfl rfl rfl rfl rfl
  have hdraw : ∀ j, drawAt (setTmoBus s.cfg.busWaitTicks t) j = drawAt s j := fun j => by
    rw [hset.drawAt, hr.drawAt]
    simp
  have h := waitFlagLoop_runs_out (mask := mask) (e := e) (n := s.cfg.busWaitTicks.toNat)
    (s := setTmoBus s.cfg.busWaitTicks t) (hr.undisturbed hu) fun k hk => hdraw (2 * k) ▸ hno k hk
  refine (h.after hset).mono fun q hq => ?_
  have hzero : s.cfg.busWaitTicks - BitVec.ofNat 32 s.cfg.busWaitTicks.toNat = 0 := by simp
  rw [hq, ← hl]
  exact congrArg (Local.setBus · _) hzero

end CallWait

/-! ### ISSUE, SEND_COMMAND, READ_STATUS -/

section Frames

variable {s : State}

theorem startFrame_runs (hu : Undisturbed s) (x : Txn) :
    (startFrame x s).Runs s () [.configure x, .trigger] (· = s.loc.framed x s.loc.regs.tmoBus) := by
  have hset : Ran [] s (setTxn x s) := .of_env_eq rfl rfl rfl rfl rfl
  obtain ⟨t, ht, hr, hl⟩ := briConfigure_runs (s := setTxn x s) hu 2 x
  obtain ⟨u, hu', hr', hl'⟩ := briTrigger_runs ((hset.trans hr).undisturbed hu) 3
  exact ⟨u, by rw [startFrame, ht, Res.bind_ok, hu'], (hset.trans hr).trans hr', by rw [hl', hl]; rfl⟩

/-- ISSUE whose wait ends at once (rule R219). -/
theorem callIssue_runs (h : Answered needsIssue s) (ph : Nat) (code : Byte) (x : Txn) :
    (callIssue ph code x s).Runs s () [.flags (drawAt s 0).flags, .configure x, .trigger]
      (· = s.loc.framed x s.cfg.busWaitTicks) := by
  refine Res.Runs.orTimeout (Res.Runs.call fun t hr hl => ?_) code
  have hdraw : drawAt t 0 = drawAt s 0 := hr.drawAt 0
  have hwait := callWait_runs (h.start hr) busIdle_met 1
  rw [hdraw, hl, hr.cfg] at hwait
  refine (hwait.bind (m := [.configure x, .trigger]) fun u hu hlu => ?_).cast rfl
  obtain ⟨v, hv, hrv, hlv⟩ := startFrame_runs (hu.undisturbed (hr.undisturbed h.1)) x
  exact ⟨v, by simp only [hv, Res.bind_ok], hrv, by rw [hlv, hlu]; rfl⟩

/-- SEND_COMMAND whose waits end at once: five steps (rule R131). -/
theorem sendCommand_runs (h : Answered needsSend s) (op : Byte) (a : Option Addr24) :
    (sendCommand op a s).Runs s ()
      [.flags (drawAt s 0).flags, .configure (commandTxn op a), .trigger, .flags (drawAt s 3).flags, .clearTc]
      (· = s.loc.framed (commandTxn op a) s.cfg.busWaitTicks) := by
  have h' : Answered (needsIssue ++ [.complete, .any]) s := h
  refine ((callIssue_runs h'.left 1 1 (commandTxn op a)).bind (m := [.flags (drawAt s 3).flags, .clearTc]) fun t hr hl => ?_).cast rfl
  have hwait := (callWait_runs (h'.after hr rfl) complete_met 2).orTimeout 1
  rw [hr.drawAt 0, hr.cfg] at hwait
  refine (hwait.bind (m := [.clearTc]) fun u hu hlu => ?_).cast rfl
  obtain ⟨v, hv, hrv, hlv⟩ := briClearTc_runs ((hr.trans hu).undisturbed h.1) 3
  exact ⟨v, hv, hrv, by rw [hlv, hlu, hl]; rfl⟩

/-- READ_STATUS whose waits end at once: six steps and the byte of the last (rule R121). -/
theorem readStatus_runs {b : Need} (h : Answered (needsStatus b) s) :
    (readStatus s).Runs s (inputByte s 5)
      [.flags (drawAt s 0).flags, .configure (txnRdsr s.cfg), .trigger, .flags (drawAt s 3).flags, .clearTc,
        .readByte (inputByte s 5)]
      (· = s.loc.polled s.cfg (inputByte s 5)) := by
  have h' : Answered (needsIssue ++ [.complete, .any, b]) s := h
  refine ((callIssue_runs h'.left 1 1 (txnRdsr s.cfg)).bind
    (m := [.flags (drawAt s 3).flags, .clearTc, .readByte (inputByte s 5)]) fun t hr hl => ?_).cast rfl
  have hwait := (callWait_runs (h'.after hr rfl) complete_met 2).orTimeout 1
  rw [hr.drawAt 0, hr.cfg] at hwait
  refine (hwait.bind (m := [.clearTc, .readByte (inputByte s 5)]) fun u hu hlu => ?_).cast rfl
  have hru := hr.trans hu
  refine ((briClearTc_runs (hru.undisturbed h.1) 3).bind (m := [.readByte (inputByte s 5)]) fun v hv hlv => ?_).cast rfl
  have hrv := hru.trans hv
  have hread := briReadByte_runs (hrv.undisturbed h.1) 4
  have hbyte : inputByte v 0 = inputByte s 5 := hrv.inputByte 0
  rw [hbyte] at hread
  refine (hread.bind (m := []) fun w hw hlw => ?_).cast rfl
  refine ⟨setSrSnap (inputByte s 5) w, rfl, .of_env_eq rfl rfl rfl rfl rfl, ?_⟩
  have hloc : w.loc = s.loc.framed (txnRdsr s.cfg) s.cfg.busWaitTicks := by rw [hlw, hlv, hlu, hl]; rfl
  change ({ w.loc with regs := { w.loc.regs with srSnap := inputByte s 5 } } : Local) = _
  rw [hloc]
  rfl

end Frames

end Sys2Proof.Machine
end

section
/-! The poller and the protocol layer run to their ends under ENV-ANY: at once, after some turns, or after a whole budget;
and so READ_STATUS, WAIT_NOT_BUSY, SEND_COMMAND, WRITE_ENABLE and RESET_MEMORY (rules R121, R122, R131 to R133). -/

namespace Sys2Proof.Machine

/-! ### Parts of a run -/

section

variable {α : Type} {r : Res α} {s t : State} {a : α} {T U : Tally} {l : List BusCall} {P : Local → Prop}

/-- A run with more steps before it. -/
theorem Res.Does.prepend (h : r.Does t a U P) (hr : Ran l s t) (hl : tally l = T) : r.Does s a (T.add U) P := by
  obtain ⟨m, hm, u, hu, hru, hp⟩ := h
  exact ⟨l ++ m, by rw [tally_append, hl, hm], u, hu, hr.trans hru, hp⟩

theorem Res.Stops.prepend {code : Byte} {cause : Cause} (h : r.Stops t code cause U P) (hr : Ran l s t) (hl : tally l = T) :
    r.Stops s code cause (T.add U) P := by
  obtain ⟨m, u, hm, hu, hru, hp⟩ := h
  exact ⟨l ++ m, u, by rw [tally_append, hl, hm], hu, hr.trans hru, hp⟩

/-- The number of steps, where the tally is known. -/
theorem Answered.past {ns ms : List Need} (h : Answered (ns ++ ms) s) (hr : Ran l s t) (hl : tally l = T)
    (hT : T.steps = ns.length) : Answered ms t := h.after hr ((length_eq_steps hl).trans hT)

theorem Ran.byteAfter (hr : Ran l s t) (hl : tally l = T) (j : Nat) :
    Machine.inputByte t j = Machine.inputByte s (T.steps + j) := by
  rw [hr.inputByte, length_eq_steps hl]

end

/-- The local parts of a poll that failed: the counter of the device wait as given, `TXN`, `TMO_BUS` and the status snapshot
anything, the rest of the registers and the buffer as before. -/
structure Local.Polling (d : Word) (q q' : Local) : Prop where
  regs : ∃ x b v, q'.regs = { q.regs with txn := x, tmoBus := b, tmoDev := d, srSnap := v }
  hbuf : q'.hbuf = q.hbuf

section Calls

variable {s : State}

theorem callSendCommand_does (h : Answered needsSend s) (ph : Nat) (code op : Byte) (a : Option Addr24) :
    (callSendCommand ph code op a s).Does s () ⟨5, [commandTxn op a], 0, []⟩
      (· = s.loc.framed (commandTxn op a) s.cfg.busWaitTicks) := by
  refine Res.Does.recode (Res.Does.call fun t hr hl => ?_) code
  have hsend := (sendCommand_runs (h.start hr) op a).does rfl
  rwa [hl, hr.cfg] at hsend

theorem callReadStatus_does {b : Need} (h : Answered (needsStatus b) s) (ph : Nat) (code : Byte) :
    ((callReadStatus ph s).recode code).Does s (inputByte s 5) ⟨6, [txnRdsr s.cfg], 0, []⟩
      (· = s.loc.polled s.cfg (inputByte s 5)) := by
  refine Res.Does.recode (Res.Does.call fun t hr hl => ?_) code
  have hread := (readStatus_runs (h.start hr)).does rfl
  have hbyte : inputByte t 5 = inputByte s 5 := hr.inputByte 5
  rw [hl, hr.cfg, hbyte] at hread
  exact hread

/-- What a status read is asked for, said of its byte. -/
theorem Answered.statusByte {b : Need} (h : Answered (needsStatus b) s) : b.met s.cfg (drawAt s 5) = true := by
  have h' : Answered (needsSend ++ [b]) s := h
  obtain ⟨_, _, ha⟩ := h'
  rw [answers_append, Bool.and_eq_true] at ha
  exact (Bool.and_eq_true _ _ ▸ ha.2).1

theorem statusBusy_of_busy (h : Answered (needsStatus .deviceBusy) s) : statusBusy s.cfg (inputByte s 5) = true := h.statusByte

theorem statusBusy_of_idle (h : Answered (needsStatus .deviceIdle) s) : statusBusy s.cfg (inputByte s 5) = false :=
  (Bool.not_eq_true' _).mp h.statusByte

theorem statusWel_of_latched (h : Answered (needsStatus .latched) s) : statusWel s.cfg (inputByte s 5) = true := h.statusByte

theorem statusWel_of_unlatched (h : Answered (needsStatus .unlatched) s) : statusWel s.cfg (inputByte s 5) = false :=
  (Bool.not_eq_true' _).mp h.statusByte

end Calls

/-! ### The device wait and the latch poll -/

section Loops

variable {s : State}

/-- The state after a poll turn: a status read, a tick, the count down. -/
def Turned (s t : State) : Prop :=
  ∃ l, tally l = ⟨7, [txnRdsr s.cfg], 1, []⟩ ∧ Ran l s t
    ∧ t.loc = (s.loc.polled s.cfg (inputByte s 5)).setDev (s.loc.regs.tmoDev - 1)

theorem Turned.of_parts {l : List BusCall} {t u : State} (hl : tally l = ⟨6, [txnRdsr s.cfg], 0, []⟩) (hr : Ran l s t)
    (ht : t.loc = s.loc.polled s.cfg (inputByte s 5)) (hr' : Ran [.tick] t u) (hu : u.loc = t.loc) :
    Turned s (countTmoDev u) := by
  have hcount : Ran [] u (countTmoDev u) := .of_env_eq rfl rfl rfl rfl rfl
  refine ⟨l ++ [.tick] ++ [], ?_, (hr.trans hr').trans hcount, ?_⟩
  · rw [List.append_nil, tally_append, hl]
    rfl
  · change (u.loc.setDev (u.loc.regs.tmoDev - 1)) = _
    rw [hu, ht]
    rfl

/-- A turn that finds the device busy. -/
theorem waitNotBusyLoop_turn (h : Answered (needsStatus .deviceBusy ++ [.any]) s) :
    ∃ t, Turned s t ∧ ∀ n, waitNotBusyLoop (n + 1) s = waitNotBusyLoop n t := by
  obtain ⟨l, hl, t, ht, hr, hloc⟩ := callReadStatus_does h.left 1 1
  obtain ⟨u, hu, hru, hlu⟩ := tick_runs (hr.undisturbed h.1) 2
  refine ⟨countTmoDev u, .of_parts hl hr hloc hru hlu, fun n => ?_⟩
  rw [waitNotBusyLoop, ht, Res.bind_ok, if_pos (by rw [hr.cfg]; exact statusBusy_of_busy h.left), hu, Res.bind_ok]

/-- A turn that finds the latch clear. -/
theorem latchPoll_turn (h : Answered (needsStatus .unlatched ++ [.any]) s) :
    ∃ t, Turned s t ∧ ∀ n, latchPoll (n + 1) s = latchPoll n t := by
  obtain ⟨l, hl, t, ht, hr, hloc⟩ := callReadStatus_does h.left 2 2
  obtain ⟨u, hu, hru, hlu⟩ := tick_runs (hr.undisturbed h.1) 3
  refine ⟨countTmoDev u, .of_parts hl hr hloc hru hlu, fun n => ?_⟩
  rw [latchPoll, ht, Res.bind_ok, if_neg (by rw [hr.cfg, statusWel_of_unlatched h.left]; decide), hu, Res.bind_ok]

/-- A turn that finds the device idle, or the latch set, is the last. -/
theorem waitNotBusyLoop_last (h : Answered (needsStatus .deviceIdle) s) (n : Nat) :
    (waitNotBusyLoop (n + 1) s).Does s (inputByte s 5) ⟨6, [txnRdsr s.cfg], 0, []⟩
      (· = s.loc.polled s.cfg (inputByte s 5)) := by
  obtain ⟨l, hl, t, ht, hr, hloc⟩ := callReadStatus_does h 1 1
  refine ⟨l, hl, t, ?_, hr, hloc⟩
  rw [waitNotBusyLoop, ht, Res.bind_ok, if_neg (by rw [hr.cfg, statusBusy_of_idle h]; decide)]

theorem latchPoll_last (h : Answered (needsStatus .latched) s) (n : Nat) :
    (latchPoll (n + 1) s).Does s () ⟨6, [txnRdsr s.cfg], 0, []⟩ (· = s.loc.polled s.cfg (inputByte s 5)) := by
  obtain ⟨l, hl, t, ht, hr, hloc⟩ := callReadStatus_does h 2 2
  refine ⟨l, hl, t, ?_, hr, hloc⟩
  rw [latchPoll, ht, Res.bind_ok, if_pos (by rw [hr.cfg]; exact statusWel_of_latched h)]

/-- The local parts after `k` turns and a last one. -/
def polledAfter (k : Nat) (s : State) : Local :=
  (s.loc.polled s.cfg (inputByte s (7 * k + 5))).setDev (s.loc.regs.tmoDev - BitVec.ofNat 32 k)

theorem polledAfter_zero (s : State) : polledAfter 0 s = s.loc.polled s.cfg (inputByte s 5) := by
  simp [polledAfter, Local.setDev, Local.polled]

theorem Turned.byte {t : State} (h : Turned s t) (k : Nat) : inputByte t (7 * k + 5) = inputByte s (7 * (k + 1) + 5) := by
  obtain ⟨l, hl, hr, _⟩ := h
  rw [hr.byteAfter hl]
  congr 1
  simp only
  omega

theorem Turned.polledAfter {t : State} (h : Turned s t) (k : Nat) : polledAfter k t = Machine.polledAfter (k + 1) s := by
  obtain ⟨l, hl, hr, ht⟩ := id h
  rw [Machine.polledAfter, Machine.polledAfter, h.byte, hr.cfg, ht, ← sub_one_sub_ofNat]
  rfl

/-- The calls of `k` turns and a last one. -/
def pollTally (c : Cfg) (k : Nat) : Tally := ⟨7 * k + 6, List.replicate (k + 1) (txnRdsr c), k, []⟩

/-- The calls of `n` turns. -/
def turnsTally (c : Cfg) (n : Nat) : Tally := ⟨7 * n, List.replicate n (txnRdsr c), n, []⟩

theorem pollTally_succ (c : Cfg) (k : Nat) : Tally.add ⟨7, [txnRdsr c], 1, []⟩ (pollTally c k) = pollTally c (k + 1) := by
  simp [Tally.add, pollTally, List.replicate_succ]
  omega

theorem turnsTally_succ (c : Cfg) (n : Nat) : Tally.add ⟨7, [txnRdsr c], 1, []⟩ (turnsTally c n) = turnsTally c (n + 1) := by
  simp [Tally.add, turnsTally, List.replicate_succ]
  omega

/-- The rounds of a poll, one taken off. -/
theorem Answered.round {k : Nat} {b : Need} {ns : List Need} (h : Answered (rounds (k + 1) (needsStatus b ++ [.any]) ++ ns) s) :
    Answered ((needsStatus b ++ [.any]) ++ (rounds k (needsStatus b ++ [.any]) ++ ns)) s :=
  h.cast (by rw [rounds_succ, List.append_assoc])

theorem waitNotBusyLoop_does {k : Nat} : ∀ {n : Nat} {s : State},
    Answered (needsBusy k ++ needsStatus .deviceIdle) s → k < n →
    (waitNotBusyLoop n s).Does s (inputByte s (7 * k + 5)) (pollTally s.cfg k) (· = polledAfter k s) := by
  induction k with
  | zero =>
    intro n s h hk
    obtain ⟨n, rfl⟩ := Nat.exists_eq_succ_of_ne_zero hk.ne'
    rw [polledAfter_zero]
    exact waitNotBusyLoop_last h n
  | succ k ih =>
    intro n s h hk
    obtain ⟨n, rfl⟩ := Nat.exists_eq_succ_of_ne_zero (Nat.ne_zero_of_lt hk)
    have h := h.round
    obtain ⟨t, hturn, hloop⟩ := waitNotBusyLoop_turn h.left
    obtain ⟨l, hl, hr, _⟩ := id hturn
    have hrest := ih (h.past hr hl rfl) (Nat.lt_of_succ_lt_succ hk)
    rw [hturn.byte, hturn.polledAfter, hr.cfg, ← hloop] at hrest
    exact pollTally_succ s.cfg k ▸ hrest.prepend hr hl

theorem latchPoll_does {k : Nat} : ∀ {n : Nat} {s : State},
    Answered (needsNoLatch k ++ needsStatus .latched) s → k < n →
    (latchPoll n s).Does s () (pollTally s.cfg k) (· = polledAfter k s) := by
  induction k with
  | zero =>
    intro n s h hk
    obtain ⟨n, rfl⟩ := Nat.exists_eq_succ_of_ne_zero hk.ne'
    rw [polledAfter_zero]
    exact latchPoll_last h n
  | succ k ih =>
    intro n s h hk
    obtain ⟨n, rfl⟩ := Nat.exists_eq_succ_of_ne_zero (Nat.ne_zero_of_lt hk)
    have h := h.round
    obtain ⟨t, hturn, hloop⟩ := latchPoll_turn h.left
    obtain ⟨l, hl, hr, _⟩ := id hturn
    have hrest := ih (h.past hr hl rfl) (Nat.lt_of_succ_lt_succ hk)
    rw [hturn.polledAfter, hr.cfg, ← hloop] at hrest
    exact pollTally_succ s.cfg k ▸ hrest.prepend hr hl

theorem Turned.polling {t : State} (h : Turned s t) {d : Word} {q : Local} (hq : Local.Polling d t.loc q) :
    Local.Polling d s.loc q := by
  obtain ⟨l, _, _, ht⟩ := h
  obtain ⟨⟨x, b, v, hregs⟩, hbuf⟩ := hq
  rw [ht] at hregs hbuf
  exact ⟨⟨x, b, v, hregs⟩, hbuf⟩

theorem Local.Polling.refl (q : Local) : Local.Polling q.regs.tmoDev q q := ⟨⟨_, _, _, rfl⟩, rfl⟩

theorem waitNotBusyLoop_stops {n : Nat} : ∀ {s : State}, Answered (needsBusy n) s →
    (waitNotBusyLoop n s).Stops s 2 .deviceTimeout (turnsTally s.cfg n)
      (Local.Polling (s.loc.regs.tmoDev - BitVec.ofNat 32 n) s.loc) := by
  induction n with
  | zero =>
    intro s h
    refine ⟨[], s, rfl, rfl, .refl s, ?_⟩
    have hzero : s.loc.regs.tmoDev - BitVec.ofNat 32 0 = s.loc.regs.tmoDev := by simp
    rw [hzero]
    exact .refl _
  | succ n ih =>
    intro s h
    have h : Answered ((needsStatus .deviceBusy ++ [.any]) ++ needsBusy n) s := h.cast (rounds_succ n _)
    obtain ⟨t, hturn, hloop⟩ := waitNotBusyLoop_turn h.left
    obtain ⟨l, hl, hr, ht⟩ := id hturn
    have hrest := ih (h.past hr hl rfl)
    rw [hr.cfg, ← hloop] at hrest
    refine (turnsTally_succ s.cfg n ▸ hrest.prepend hr hl).mono fun q hq => ?_
    have hdev : t.loc.regs.tmoDev - BitVec.ofNat 32 n = s.loc.regs.tmoDev - BitVec.ofNat 32 (n + 1) := by
      rw [ht, ← sub_one_sub_ofNat]
      rfl
    exact hturn.polling (hdev ▸ hq)

theorem latchPoll_stops {n : Nat} : ∀ {s : State}, Answered (needsNoLatch n) s →
    (latchPoll n s).Stops s 3 .writeEnableFailed (turnsTally s.cfg n)
      (Local.Polling (s.loc.regs.tmoDev - BitVec.ofNat 32 n) s.loc) := by
  induction n with
  | zero =>
    intro s h
    refine ⟨[], s, rfl, rfl, .refl s, ?_⟩
    have hzero : s.loc.regs.tmoDev - BitVec.ofNat 32 0 = s.loc.regs.tmoDev := by simp
    rw [hzero]
    exact .refl _
  | succ n ih =>
    intro s h
    have h : Answered ((needsStatus .unlatched ++ [.any]) ++ needsNoLatch n) s := h.cast (rounds_succ n _)
    obtain ⟨t, hturn, hloop⟩ := latchPoll_turn h.left
    obtain ⟨l, hl, hr, ht⟩ := id hturn
    have hrest := ih (h.past hr hl rfl)
    rw [hr.cfg, ← hloop] at hrest
    refine (turnsTally_succ s.cfg n ▸ hrest.prepend hr hl).mono fun q hq => ?_
    have hdev : t.loc.regs.tmoDev - BitVec.ofNat 32 n = s.loc.regs.tmoDev - BitVec.ofNat 32 (n + 1) := by
      rw [ht, ← sub_one_sub_ofNat]
      rfl
    exact hturn.polling (hdev ▸ hq)

end Loops

/-! ### WAIT_NOT_BUSY, WRITE_ENABLE and RESET_MEMORY as procedures -/

section Procedures

variable {s : State}

theorem Ran.setTmoDev (s : State) (n : Word) : Ran [] s (setTmoDev n s) := .of_env_eq rfl rfl rfl rfl rfl

/-- The local parts after a device wait or a latch poll of budget `n` that took `k` turns and a last one. -/
def waitedAfter (n : Word) (k : Nat) (b : Byte) (s : State) : Local :=
  (s.loc.polled s.cfg b).setDev (n - BitVec.ofNat 32 k)

theorem waitNotBusy_does {n : Word} {k : Nat} (h : Answered (needsBusy k ++ needsStatus .deviceIdle) s) (hk : k < n.toNat) :
    (waitNotBusy n s).Does s (inputByte s (7 * k + 5)) (pollTally s.cfg k)
      (· = waitedAfter n k (inputByte s (7 * k + 5)) s) :=
  (waitNotBusyLoop_does (h.start (.setTmoDev s n)) hk).after (.setTmoDev s n)

theorem sub_ofNat_toNat (n : Word) : n - BitVec.ofNat 32 n.toNat = 0 := by simp

theorem waitNotBusy_stops {n : Word} (h : Answered (needsBusy n.toNat) s) :
    (waitNotBusy n s).Stops s 2 .deviceTimeout (turnsTally s.cfg n.toNat) (Local.Polling 0 s.loc) := by
  have hloop := (waitNotBusyLoop_stops (h.start (.setTmoDev s n))).after (.setTmoDev s n)
  refine hloop.mono fun q ⟨⟨x, b, v, hregs⟩, hbuf⟩ => ⟨⟨x, b, v, ?_⟩, hbuf⟩
  rw [hregs, show (setTmoDev n s).loc.regs.tmoDev - BitVec.ofNat 32 n.toNat = 0 from sub_ofNat_toNat n]
  rfl

/-- A device wait that ends at once. -/
theorem callWaitNotBusy_does (h : Answered (needsStatus .deviceIdle) s) (ph : Nat) (code : Byte) {n : Word} (hn : n ≠ 0) :
    (callWaitNotBusy ph code n s).Does s () ⟨6, [txnRdsr s.cfg], 0, []⟩
      (· = (s.loc.polled s.cfg (inputByte s 5)).setDev n) := by
  have hpos : 0 < n.toNat := Nat.pos_of_ne_zero fun z => hn (BitVec.eq_of_toNat_eq z)
  have hcall : (call ph .waitNotBusy s (waitNotBusy n)).Does s (inputByte s 5) ⟨6, [txnRdsr s.cfg], 0, []⟩
      (· = (s.loc.polled s.cfg (inputByte s 5)).setDev n) := Res.Does.call fun t hr hl => by
    have hwait := waitNotBusy_does (k := 0) (h.start hr) hpos
    have hbyte : inputByte t (7 * 0 + 5) = inputByte s 5 := hr.inputByte 5
    rw [hbyte, hr.cfg, waitedAfter, hl, hr.cfg, show n - BitVec.ofNat 32 0 = n by simp] at hwait
    exact hwait
  exact ((hcall.recode code).bind (U := ⟨0, [], 0, []⟩) fun _ t _ _ ht => .ok () ht)

theorem callWaitNotBusy_stops (ph : Nat) (code : Byte) {n : Word} (h : Answered (needsBusy n.toNat) s) :
    (callWaitNotBusy ph code n s).Stops s code .deviceTimeout (turnsTally s.cfg n.toNat) (Local.Polling 0 s.loc) := by
  refine Res.Stops.bind (Res.Stops.recode (code := 2) (Res.Stops.call fun t hr hl => ?_) code)
  have hwait := waitNotBusy_stops (h.start hr)
  rwa [hr.cfg, hl] at hwait

theorem writeEnable_does {k : Nat} (h : Answered (needsSend ++ (needsNoLatch k ++ needsStatus .latched)) s)
    (hk : k < s.cfg.welRetry.toNat) :
    (writeEnable s).Does s () (Tally.add ⟨5, [txnCmd s.cfg.opWriteEnable], 0, []⟩ (pollTally s.cfg k))
      (· = waitedAfter s.cfg.welRetry k (inputByte s (7 * k + 10)) s) := by
  refine (callSendCommand_does h.left 1 1 s.cfg.opWriteEnable none).bind fun l t hl hr ht => ?_
  have hset : Ran l s (setTmoDev t.cfg.welRetry t) := by simpa using hr.trans (.setTmoDev t _)
  have hpoll := latchPoll_does (n := t.cfg.welRetry.toNat) (s := setTmoDev t.cfg.welRetry t) (h.past hset hl rfl)
    (by rwa [hr.cfg])
  rw [setTmoDev_cfg, hr.cfg] at hpoll
  rw [hr.cfg]
  refine Res.Does.after (hpoll.mono fun q hq => ?_) (.setTmoDev t _)
  have hbyte : inputByte (setTmoDev t.cfg.welRetry t) (7 * k + 5) = inputByte s (7 * k + 10) := by
    rw [hset.byteAfter hl]
    congr 1
    simp only
    omega
  rw [hr.cfg] at hbyte
  have hloc : (setTmoDev s.cfg.welRetry t).loc
      = (s.loc.framed (txnCmd s.cfg.opWriteEnable) s.cfg.busWaitTicks).setDev s.cfg.welRetry := by
    rw [← show t.loc = s.loc.framed (txnCmd s.cfg.opWriteEnable) s.cfg.busWaitTicks from ht]
    rfl
  rw [hq, polledAfter, hbyte, hloc, setTmoDev_cfg, hr.cfg]
  rfl

theorem writeEnable_stops (h : Answered (needsSend ++ needsNoLatch s.cfg.welRetry.toNat) s) :
    (writeEnable s).Stops s 3 .writeEnableFailed
      (Tally.add ⟨5, [txnCmd s.cfg.opWriteEnable], 0, []⟩ (turnsTally s.cfg s.cfg.welRetry.toNat)) (Local.Polling 0 s.loc) := by
  refine (callSendCommand_does h.left 1 1 s.cfg.opWriteEnable none).bind_stops fun l t hl hr ht => ?_
  rw [hr.cfg]
  have hset : Ran l s (setTmoDev s.cfg.welRetry t) := by simpa using hr.trans (.setTmoDev t _)
  have hpoll := latchPoll_stops (s := setTmoDev s.cfg.welRetry t) (h.past hset hl rfl)
  rw [setTmoDev_cfg, hr.cfg] at hpoll
  refine Res.Stops.after (hpoll.mono fun q ⟨⟨x, b, v, hregs⟩, hbuf⟩ => ⟨⟨x, b, v, ?_⟩, ?_⟩) (.setTmoDev t _)
  · rw [hregs, show (setTmoDev s.cfg.welRetry t).loc.regs.tmoDev - BitVec.ofNat 32 s.cfg.welRetry.toNat = 0 from
      sub_ofNat_toNat _]
    change { t.loc.regs with txn := x, tmoBus := b, tmoDev := 0, srSnap := v } = _
    rw [ht]
    rfl
  · have hbuf' : q.hbuf = t.loc.hbuf := hbuf
    rw [hbuf', ht]
    rfl

/-- WRITE_ENABLE whose latch is seen at once, called by a chunk or an erase. -/
theorem callWriteEnable_does (h : Answered needsEnable s) (hw : s.cfg.welRetry ≠ 0) :
    (callWriteEnable s).Does s () ⟨11, [txnCmd s.cfg.opWriteEnable, txnRdsr s.cfg], 0, []⟩
      (· = (s.loc.polled s.cfg (inputByte s 10)).setDev s.cfg.welRetry) := by
  have hpos : 0 < s.cfg.welRetry.toNat := Nat.pos_of_ne_zero fun z => hw (BitVec.eq_of_toNat_eq z)
  refine Res.Does.recode (Res.Does.call fun t hr hl => ?_) 1
  have henable := writeEnable_does (k := 0) (h.start hr) (by rwa [hr.cfg])
  have hbyte : inputByte t (7 * 0 + 10) = inputByte s 10 := hr.inputByte 10
  rw [hbyte, hr.cfg, waitedAfter, hl, hr.cfg, show s.cfg.welRetry - BitVec.ofNat 32 0 = s.cfg.welRetry by simp] at henable
  exact henable

theorem callWriteEnable_stops (h : Answered (needsSend ++ needsNoLatch s.cfg.welRetry.toNat) s) :
    (callWriteEnable s).Stops s 1 .writeEnableFailed
      (Tally.add ⟨5, [txnCmd s.cfg.opWriteEnable], 0, []⟩ (turnsTally s.cfg s.cfg.welRetry.toNat)) (Local.Polling 0 s.loc) := by
  refine Res.Stops.recode (code := 3) (Res.Stops.call fun t hr hl => ?_) 1
  have h' : Answered (needsSend ++ needsNoLatch t.cfg.welRetry.toNat) t := by rw [hr.cfg]; exact h.start hr
  have henable := writeEnable_stops h'
  rwa [hr.cfg, hl] at henable

/-- The two reset frames, and then the device wait (rule R133). -/
theorem resetMemory_frames (h : Answered (needsSend ++ needsSend) s) :
    ∃ l t, tally l = ⟨10, [txnCmd s.cfg.opResetEnable, txnCmd s.cfg.opResetMemory], 0, []⟩ ∧ Ran l s t
      ∧ t.loc = s.loc.framed (txnCmd s.cfg.opResetMemory) s.cfg.busWaitTicks
      ∧ resetMemory s = callWaitNotBusy 3 3 s.cfg.resetWaitTicks t := by
  obtain ⟨l, hl, t, ht, hr, hloc⟩ := callSendCommand_does h.left 1 1 s.cfg.opResetEnable none
  obtain ⟨m, hm, u, hu, hru, hlocu⟩ := callSendCommand_does (h.past hr hl rfl) 2 2 s.cfg.opResetMemory none
  have hran := hr.trans hru
  refine ⟨l ++ m, u, ?_, hran, ?_, ?_⟩
  · rw [tally_append, hl, hm]
    rfl
  · rw [hlocu, hloc, hr.cfg]
    rfl
  · rw [resetMemory, ht, Res.bind_ok, hr.cfg, hu, Res.bind_ok, hran.cfg]

/-- RESET_MEMORY of a device that is not busy. -/
theorem resetMemory_does (h : Answered needsReset s) (hn : s.cfg.resetWaitTicks ≠ 0) :
    (resetMemory s).Does s () ⟨16, [txnCmd s.cfg.opResetEnable, txnCmd s.cfg.opResetMemory, txnRdsr s.cfg], 0, []⟩
      (· = (s.loc.polled s.cfg (inputByte s 15)).setDev s.cfg.resetWaitTicks) := by
  have h' : Answered ((needsSend ++ needsSend) ++ needsStatus .deviceIdle) s := h
  obtain ⟨l, t, hl, hr, hloc, heq⟩ := resetMemory_frames h'.left
  have hwait := callWaitNotBusy_does (h'.past hr hl rfl) 3 3 hn
  have hbyte : inputByte t 5 = inputByte s 15 := hr.byteAfter hl 5
  rw [hbyte, hloc, hr.cfg, ← heq] at hwait
  exact hwait.prepend hr hl

end Procedures

end Sys2Proof.Machine
end

section
/-! What READ_STATUS, WAIT_NOT_BUSY, SEND_COMMAND, WRITE_ENABLE, RESET_MEMORY, and INIT_BUS do when their waits end,
and when one never does (rules R121, R122, R131 to R133, R171, R172, R182). -/

namespace Sys2Proof.Machine

/-! ### Operations that complete -/

/-- The local parts of the last frame configured. -/
theorem Ended.lastConfigured {T : Tally} {v : DWord} {q : Local} {s t : State} (h : Ended T (okSeq v q.regs) q s t)
    (hq : q.bri = { s.bri with cfg := q.regs.txn }) : Machine.lastConfigured s t := by
  change t.bri = { s.bri with cfg := t.seq.txn }
  rw [h.bri, hq, h.seq]
  rfl

theorem Ended.lastConfigured_fail {T : Tally} {c : Byte} {e : Cause} {q : Local} {s t : State}
    (h : Ended T (failSeq c e q.regs) q s t) (hq : q.bri = { s.bri with cfg := q.regs.txn }) : Machine.lastConfigured s t := by
  change t.bri = { s.bri with cfg := t.seq.txn }
  rw [h.bri, hq, h.seq]
  rfl

/-- Settles O19: the six steps of READ_STATUS, from the state its record was entered in. -/
theorem readStatusCompletes : Obligations.ReadStatusCompletes := by
  intro s h hi
  obtain ⟨t, q, hexec, rfl, hend, hcalls⟩ := run_runs (exec_readStatus s) hi fun t hr hl => by
    have hread := readStatus_runs (h.start hr)
    have hbyte : inputByte t 5 = inputByte s 5 := hr.inputByte 5
    rw [hr.drawAt 0, hr.drawAt 3, hbyte, hr.cfg, hl] at hread
    exact hread
  exact ⟨t, hexec, hend.seq, hcalls, hend.sameSurroundings rfl, hend.lastConfigured rfl, hend.tookSteps⟩

/-- Settles O20: by induction on the busy turns. -/
theorem waitNotBusyCompletes : Obligations.WaitNotBusyCompletes := by
  intro s n k h hi hk
  obtain ⟨t, q, hexec, rfl, hend⟩ := run_does (exec_waitNotBusy n s) hi fun t hr hl => by
    have hwait := waitNotBusy_does (h.start hr) hk
    have hbyte : inputByte t (7 * k + 5) = inputByte s (7 * k + 5) := by rw [hr.inputByte]; simp
    rw [hbyte, hr.cfg, waitedAfter, hl, hr.cfg] at hwait
    exact hwait
  exact ⟨t, hexec, hend.seq, hend.frames, hend.ticks, hend.sameSurroundings rfl, hend.lastConfigured rfl, hend.tookSteps⟩

/-- Settles O22: the five steps of SEND_COMMAND, with the frame of either form. -/
theorem sendCommandCompletes : Obligations.SendCommandCompletes := by
  intro s op a h hi frame
  have hframe : commandTxn op (a.map trunc24) = frame := by cases a <;> rfl
  obtain ⟨t, q, hexec, rfl, hend, hcalls⟩ := run_runs (exec_sendCommand op a s) hi fun t hr hl => by
    have hsend := sendCommand_runs (h.start hr) op (a.map trunc24)
    rw [hr.drawAt 0, hr.drawAt 3, hr.cfg, hl, hframe] at hsend
    exact hsend
  exact ⟨t, hexec, hend.seq, hcalls, hend.sameSurroundings rfl, hend.lastConfigured rfl, hend.tookSteps⟩

/-- Settles O23: the write-enable frame, and the latch poll by induction on its turns. -/
theorem writeEnableCompletes : Obligations.WriteEnableCompletes := by
  intro s k h hi hk
  obtain ⟨t, q, hexec, rfl, hend⟩ := run_does (exec_writeEnable s) hi fun t hr hl => by
    have henable := writeEnable_does ((h.cast (List.append_assoc _ _ _)).start hr) (by rwa [hr.cfg])
    have hbyte : inputByte t (7 * k + 10) = inputByte s (7 * k + 10) := by rw [hr.inputByte]; simp
    rw [hbyte, hr.cfg, waitedAfter, hl, hr.cfg] at henable
    exact henable
  have hsteps : 5 + (7 * k + 6) = 7 * k + 11 := by omega
  refine ⟨t, hexec, hend.seq, hend.frames, ?_, hend.sameSurroundings rfl, hend.lastConfigured rfl, hsteps ▸ hend.tookSteps⟩
  exact hend.ticks.trans (Nat.zero_add k)

/-- Settles O24: the latch poll uses up its budget. -/
theorem writeEnableNeverLatched : Obligations.WriteEnableNeverLatched := by
  intro s h hi
  obtain ⟨t, q, hexec, hq, hend, _⟩ := run_stops (exec_writeEnable s) hi h.1 fun t hr hl => by
    have h' : Answered (needsSend ++ needsNoLatch t.cfg.welRetry.toNat) t := by rw [hr.cfg]; exact h.start hr
    have henable := writeEnable_stops h'
    rwa [hr.cfg, hl] at henable
  have hsteps : 5 + 7 * s.cfg.welRetry.toNat + 1 = 7 * s.cfg.welRetry.toNat + 6 := by omega
  refine ⟨t, hexec, by rw [hend.seq]; rfl, by rw [hend.seq]; rfl, by rw [hend.seq]; rfl, by rw [hend.seq]; rfl,
    by rw [hend.seq]; rfl, ?_, ?_, hend.sameSurroundings hq.hbuf, hsteps ▸ hend.tookSteps⟩
  · exact hend.frames.trans (List.append_nil _)
  · exact hend.ticks.trans (Nat.zero_add _)

/-- Settles O25: three frames, sixteen steps. -/
theorem resetMemoryCompletes : Obligations.ResetMemoryCompletes := by
  intro s h hn hi
  obtain ⟨t, q, hexec, rfl, hend⟩ := run_does (exec_resetMemory s) hi fun t hr hl => by
    have hreset := resetMemory_does (h.start hr) (by rwa [hr.cfg])
    have hbyte : inputByte t 15 = inputByte s 15 := hr.inputByte 15
    rw [hbyte, hr.cfg, hl] at hreset
    exact hreset
  exact ⟨t, hexec, hend.seq, hend.frames, hend.sameSurroundings rfl, hend.lastConfigured rfl, hend.tookSteps⟩

/-! ### INIT_BUS -/

/-- The local parts after INIT_BUS. -/
def Local.broughtUp (c : Cfg) (b : Byte) (q : Local) : Local :=
  { q with
    regs := { q.regs with txn := txnRdsr c, tmoBus := c.busWaitTicks, tmoDev := c.resetWaitTicks, srSnap := b, inited := true }
    bri := { q.bri with en := true, init := initFields c, cfg := txnRdsr c } }

/-- INIT_BUS whose waits end at once: the fields, the enable, and RESET_MEMORY (rule R171). -/
theorem initBus_runs {s : State} (h : Answered ([.any, .any] ++ needsReset) s) (hn : s.cfg.resetWaitTicks ≠ 0) :
    ∃ l, tally l = ⟨16, [txnCmd s.cfg.opResetEnable, txnCmd s.cfg.opResetMemory, txnRdsr s.cfg], 0, []⟩
      ∧ (initBus s).Runs s () (.init (initFields s.cfg) :: .enable :: l) (· = s.loc.broughtUp s.cfg (inputByte s 17)) := by
  have hset : Ran [] s (setInited false s) := .of_env_eq rfl rfl rfl rfl rfl
  obtain ⟨t, ht, hrt, hlt⟩ := briInit_runs (hset.undisturbed h.1) 1 (initFields s.cfg)
  have hst : Ran [.init (initFields s.cfg)] s t := hset.trans hrt
  obtain ⟨u, hu, hru, hlu⟩ := briEnable_runs (hst.undisturbed h.1) 2
  have hsu := hst.trans hru
  have hcall : (call 3 .resetMemory u resetMemory).Does u ()
      ⟨16, [txnCmd s.cfg.opResetEnable, txnCmd s.cfg.opResetMemory, txnRdsr s.cfg], 0, []⟩
      (· = (u.loc.polled s.cfg (inputByte s 17)).setDev s.cfg.resetWaitTicks) := Res.Does.call fun v hrv hlv => by
    have hsv := hsu.trans hrv
    have hreset := resetMemory_does (h.after hsv rfl) (by rwa [hsv.cfg])
    have hbyte : inputByte v 15 = inputByte s 17 := hsv.inputByte 15
    rw [hbyte, hsv.cfg, hlv] at hreset
    exact hreset
  obtain ⟨l, hl, v, hv, hrv, hlv⟩ := hcall
  refine ⟨l, hl, setInited true v, ?_, ?_, ?_⟩
  · rw [initBus, ht, Res.bind_ok, hu, Res.bind_ok, hv, Res.bind_ok]
  · have hend : Ran [] v (setInited true v) := .of_env_eq rfl rfl rfl rfl rfl
    simpa using (hsu.trans hrv).trans hend
  · have hbri : t.bri = { s.bri with init := initFields s.cfg } := congrArg Local.bri hlt
    change ({ v.loc with regs := { v.loc.regs with inited := true } } : Local) = _
    rw [hlv, hlu, hlt, hbri]
    rfl

theorem tally_init_enable (f : BusInit) (l : List BusCall) :
    tally (.init f :: .enable :: l) = Tally.add ⟨2, [], 0, []⟩ (tally l) := tally_append [.init f, .enable] l

/-- An operation that brings the bus up. -/
theorem initBusCompletes_of {s : State} {i : Instr} {v : DWord} {r : Res Unit} {code : Byte → Byte}
    (hexec : exec i s = finish (fun _ => v) code r) {l : List BusCall}
    (hl : tally l = ⟨16, [txnCmd s.cfg.opResetEnable, txnCmd s.cfg.opResetMemory, txnRdsr s.cfg], 0, []⟩)
    (h : r.Runs s () (.init (initFields s.cfg) :: .enable :: l) (· = s.loc.broughtUp s.cfg (inputByte s 17))) :
    ∃ t, exec i s = .next t
      ∧ t.seq = okSeq v
          { s.seq with txn := txnRdsr s.cfg, tmoBus := s.cfg.busWaitTicks, tmoDev := s.cfg.resetWaitTicks
                       srSnap := inputByte s 17, inited := true }
      ∧ (newCalls s t).take 2 = [.init (initFields s.cfg), .enable]
      ∧ newFrames s t = [txnCmd s.cfg.opResetEnable, txnCmd s.cfg.opResetMemory, txnRdsr s.cfg]
      ∧ t.bri = { s.bri with en := true, init := initFields s.cfg, cfg := txnRdsr s.cfg }
      ∧ sameSurroundings s t ∧ tookSteps 18 s t := by
  obtain ⟨t, q, ht, rfl, hend, hcalls⟩ := finish_runs (fun _ => v) code h
  have hall : tally (.init (initFields s.cfg) :: .enable :: l)
      = ⟨18, [txnCmd s.cfg.opResetEnable, txnCmd s.cfg.opResetMemory, txnRdsr s.cfg], 0, []⟩ := by
    rw [tally_init_enable, hl]
    rfl
  rw [hall] at hend
  exact ⟨t, hexec.trans ht, hend.seq, by rw [hcalls]; rfl, hend.frames, hend.bri, hend.sameSurroundings rfl, hend.tookSteps⟩

/-- Settles O34: INIT_BUS, and ABI_INITIALIZE, which calls it. -/
theorem initBusCompletes : Obligations.InitBusCompletes := by
  intro s i v hiv h hn
  rcases hiv with ⟨rfl, rfl⟩ | ⟨rfl, rfl⟩
  · obtain ⟨l, hl, u, hu, hr, hp⟩ := initBus_runs (h.start (.enter .initBus s)) hn
    exact initBusCompletes_of (exec_initBus s) hl ⟨u, hu, (Ran.enter .initBus s).trans hr, hp⟩
  · obtain ⟨t, ht, hpush, hloc⟩ : ∃ t, t = pushProc .initBus (setPhase 1 (enterProc .abiInitialize s)) ∧ Ran [] s t
        ∧ t.loc = s.loc :=
      ⟨_, rfl, (Ran.enter .abiInitialize s).trans (.push 1 .initBus (enterProc .abiInitialize s)),
        (loc_push _ _ _).trans (loc_enter _ s)⟩
    obtain ⟨l, hl, u, hu, hr, hp⟩ := initBus_runs (h.start hpush) (by rwa [hpush.cfg])
    have hbyte : inputByte t 17 = inputByte s 17 := hpush.inputByte 17
    have hpop : Ran [] u (popProc u) := .of_env_eq rfl rfl rfl rfl rfl
    rw [hpush.cfg] at hl hr hp
    rw [hbyte, hloc] at hp
    refine initBusCompletes_of (exec_abiInitialize s) hl ⟨popProc u, ?_, ?_, hp⟩
    · rw [abiInitialize, call, ← ht, hu]
      rfl
    · simpa using (hpush.trans hr).trans hpop

end Sys2Proof.Machine
end

section
/-! DEINIT_BUS in either environment (rules R172, R220). -/

namespace Sys2Proof.Machine

/-! ### The agents at a disabled controller -/

/-- A disabled controller is left as it is, and no agent stops the run: only the device may end its operation. -/
theorem agentSteps_disabled (l : List AgentStep) : ∀ {s : State}, s.bri.en = false →
    ∃ t, agentSteps l s = .ok () t ∧ t.bri = s.bri := by
  induction l with
  | nil => exact fun _ => ⟨_, rfl, rfl⟩
  | cons a l ih =>
    intro s h
    cases a with
    | bri =>
      obtain ⟨t, ht, hb⟩ := ih h
      exact ⟨t, by rw [agentSteps, agentStep, controllerStep, if_neg (by simp [h]), Res.bind_ok, ht], hb⟩
    | dev =>
      have hdev : (deviceEnd s).bri = s.bri := (deviceEnd_move s).bri
      obtain ⟨t, ht, hb⟩ := ih (hdev ▸ h)
      exact ⟨t, ht, hb.trans hdev⟩

theorem otherAgents_disabled (d : Draw) {s : State} (h : s.bri.en = false) :
    ∃ t, otherAgents d s = .ok () t ∧ t.bri = s.bri := by
  unfold otherAgents
  cases s.env.model with
  | any => exact ⟨s, rfl, rfl⟩
  | ref => exact agentSteps_disabled d.moves h

/-- The step of `bri.disable`, unless a reset of SEQ falls on it. -/
theorem briDisable_next {s : State} (ph : Nat) (hr : s.host.resetAt ≠ some s.env.now) :
    ∃ t, briDisable ph s = .ok () t ∧ t.bri.en = false ∧ t.seq = (setPhase ph s).seq ∧ t.host = s.host ∧ Traced s t
      ∧ newCalls s t = [.disable] := by
  obtain ⟨u, hu⟩ : ∃ u, u = record .disable (useFree 2 ((advance (setPhase ph s)).withBri
      (disabledController s.cfg s.env.frees))) := ⟨_, rfl⟩
  have hen : u.bri.en = false := by rw [hu]; rfl
  obtain ⟨t, ht, hbri⟩ := otherAgents_disabled (nextDraw s) hen
  have hmove := otherAgents_move ht
  have hany : s.env.model = .any → t.dev = s.dev := fun hm => by
    have hmu : u.env.model = .any := by rw [hu]; exact hm
    rw [otherAgents_any _ hmu] at ht
    cases ht
    rw [hu]
    rfl
  obtain ⟨htr, hcalls⟩ := traced_step hr (hu ▸ hmove) hany
  refine ⟨t, seqStep_eq_ok.mpr ⟨hr, u, by rw [hu]; rfl, ht⟩, by rw [hbri, hen], ?_, ?_, htr, hcalls⟩
  · rw [hmove.seq, hu]; rfl
  · rw [hmove.host, hu]; rfl

/-- Settles O35: the one step of DEINIT_BUS. -/
theorem deinitBusCompletes : Obligations.DeinitBusCompletes := by
  intro s hr
  obtain ⟨t, ht, hen, hseq, hhost, htr, hcalls⟩ := briDisable_next (s := enterProc .deinitBus s) 1 hr
  have hlast : newCalls s (complete 0 .none 0 (setInited false t)) = [.disable] := hcalls
  refine ⟨complete 0 .none 0 (setInited false t), ?_, ?_, hen, hlast, ?_, htr.cfg, hhost, htr.dev⟩
  · rw [exec_deinitBus, deinitBus, ht]
    rfl
  · change okSeq 0 { t.seq with inited := false } = _
    rw [hseq]
    rfl
  · have hnow := htr.now
    rw [hcalls] at hnow
    exact hnow

end Sys2Proof.Machine
end

section
/-! Bus waits that use up their budget under ENV-ANY, in a frame of a command or of a status read (rules R218, R219). -/

namespace Sys2Proof.Machine

/-! ### Unmet samples -/

/-- From the `k`-th answer on, no sample of a whole bus budget meets the condition: the samples are every other answer. -/
def NeverMet (mask : FlagSet) (e : Bool) (k : Nat) (s : State) : Prop :=
  ∀ j, j < s.cfg.busWaitTicks.toNat → flagsMet mask e (drawAt s (k + 2 * j)).flags = false

section NeverMet

variable {mask : FlagSet} {e : Bool} {k : Nat} {l : List BusCall} {s t : State} {T : Tally}

theorem NeverMet.past (h : NeverMet mask e (T.steps + k) s) (hr : Ran l s t) (hl : tally l = T) : NeverMet mask e k t := by
  intro j hj
  rw [hr.drawAt, length_eq_steps hl, ← Nat.add_assoc]
  exact h j (hr.cfg ▸ hj)

theorem NeverMet.start (h : NeverMet mask e k s) (hr : Ran [] s t) : NeverMet mask e k t :=
  NeverMet.past (T := ⟨0, [], 0, []⟩) ((Nat.zero_add k).symm ▸ h) hr rfl

theorem neverMet_busy (h : ∀ j, j < s.cfg.busWaitTicks.toNat → (drawAt s (k + 2 * j)).flags.busy = true) :
    NeverMet maskBusy false k s := fun j hj => by simp [flagsMet, someFlag, maskBusy, h j hj]

theorem neverMet_tc (h : ∀ j, j < s.cfg.busWaitTicks.toNat → (drawAt s (k + 2 * j)).flags.tc = false) :
    NeverMet maskTc true k s := fun j hj => by simp [flagsMet, someFlag, maskTc, h j hj]

theorem neverMet_ft (h : ∀ j, j < s.cfg.busWaitTicks.toNat → (drawAt s (k + 2 * j)).flags.ft = false) :
    NeverMet maskFt true k s := fun j hj => by simp [flagsMet, someFlag, maskFt, h j hj]

end NeverMet

theorem Tally.add_none (T : Tally) : T.add ⟨0, [], 0, []⟩ = T := by simp [Tally.add]

/-- The calls of a bus wait that uses up its budget. -/
def stuckTally (c : Cfg) : Tally := ⟨2 * c.busWaitTicks.toNat, [], c.busWaitTicks.toNat, []⟩

section Stuck

variable {s : State} {mask : FlagSet} {e : Bool}

theorem callWait_stuck (hu : Undisturbed s) (ph : Nat) (h : NeverMet mask e 0 s) (code : Byte) :
    ((callWait ph mask e s).orTimeout code).Stops s code .busTimeout (stuckTally s.cfg) (· = s.loc.setBus 0) :=
  (callWait_out hu ph fun j hj => by simpa using h j hj).timeout code

/-- ISSUE of which the bus is never idle sends nothing. -/
theorem callIssue_stuck (hu : Undisturbed s) (ph : Nat) (code : Byte) (x : Txn) (h : NeverMet maskBusy false 0 s) :
    (callIssue ph code x s).Stops s code .busTimeout (stuckTally s.cfg) (· = s.loc.setBus 0) := by
  refine Res.Does.timeout (Res.Does.call fun t hr hl => ?_) code
  have hwait := callWait_out (hr.undisturbed hu) 1 fun j hj => by simpa using (h.start hr) j hj
  rw [hr.cfg, hl] at hwait
  refine (Res.Does.bind (U := ⟨0, [], 0, []⟩) (Q := (· = s.loc.setBus 0)) hwait fun _ u _ _ hp => ?_).cast (Tally.add_none _)
  exact .ok Waited.timeout hp

variable {α : Type} {k : Unit → State → Res α}

/-- A procedure that starts with ISSUE and a transfer-complete wait, and is never given an idle bus. -/
theorem frame_stuck (hu : Undisturbed s) (x : Txn) (h : NeverMet maskBusy false 0 s) :
    ((callIssue 1 1 x s).bind fun _ s => ((callWait 2 maskTc true s).orTimeout 1).bind k).Stops s 1 .busTimeout
      (stuckTally s.cfg) (· = s.loc.setBus 0) := (callIssue_stuck hu 1 1 x h).bind

/-- A procedure that starts with ISSUE and a transfer-complete wait, which is never given transfer-complete. -/
theorem frame_unfinished (hi : Answered needsIssue s) (x : Txn) (h : NeverMet maskTc true 3 s) :
    ((callIssue 1 1 x s).bind fun _ s => ((callWait 2 maskTc true s).orTimeout 1).bind k).Stops s 1 .busTimeout
      (Tally.add ⟨3, [x], 0, []⟩ (stuckTally s.cfg)) (· = s.loc.framed x 0) := by
  refine ((callIssue_runs hi 1 1 x).does (T := ⟨3, [x], 0, []⟩) rfl).bind_stops fun l t hl hr ht => ?_
  have hwait := callWait_stuck (hr.undisturbed hi.1) 2 (h.past hr hl) 1
  rw [hr.cfg, ht] at hwait
  exact hwait.bind

theorem sendCommand_stuck (hu : Undisturbed s) (op : Byte) (a : Option Addr24) (h : NeverMet maskBusy false 0 s) :
    (sendCommand op a s).Stops s 1 .busTimeout (stuckTally s.cfg) (· = s.loc.setBus 0) := frame_stuck hu _ h

theorem sendCommand_unfinished (hi : Answered needsIssue s) (op : Byte) (a : Option Addr24) (h : NeverMet maskTc true 3 s) :
    (sendCommand op a s).Stops s 1 .busTimeout (Tally.add ⟨3, [commandTxn op a], 0, []⟩ (stuckTally s.cfg))
      (· = s.loc.framed (commandTxn op a) 0) := frame_unfinished hi _ h

theorem readStatus_stuck (hu : Undisturbed s) (h : NeverMet maskBusy false 0 s) :
    (readStatus s).Stops s 1 .busTimeout (stuckTally s.cfg) (· = s.loc.setBus 0) := frame_stuck hu _ h

theorem readStatus_unfinished (hi : Answered needsIssue s) (h : NeverMet maskTc true 3 s) :
    (readStatus s).Stops s 1 .busTimeout (Tally.add ⟨3, [txnRdsr s.cfg], 0, []⟩ (stuckTally s.cfg))
      (· = s.loc.framed (txnRdsr s.cfg) 0) := frame_unfinished hi _ h

theorem callSendCommand_stuck (hu : Undisturbed s) (ph : Nat) (code op : Byte) (a : Option Addr24)
    (h : NeverMet maskBusy false 0 s) :
    (callSendCommand ph code op a s).Stops s code .busTimeout (stuckTally s.cfg) (· = s.loc.setBus 0) := by
  refine Res.Stops.recode (code := 1) (Res.Stops.call fun t hr hl => ?_) code
  have hsend := sendCommand_stuck (hr.undisturbed hu) op a (h.start hr)
  rwa [hr.cfg, hl] at hsend

theorem callSendCommand_unfinished (hi : Answered needsIssue s) (ph : Nat) (code op : Byte) (a : Option Addr24)
    (h : NeverMet maskTc true 3 s) :
    (callSendCommand ph code op a s).Stops s code .busTimeout (Tally.add ⟨3, [commandTxn op a], 0, []⟩ (stuckTally s.cfg))
      (· = s.loc.framed (commandTxn op a) 0) := by
  refine Res.Stops.recode (code := 1) (Res.Stops.call fun t hr hl => ?_) code
  have hsend := sendCommand_unfinished (hi.start hr) op a (h.start hr)
  rwa [hr.cfg, hl] at hsend

theorem writeEnable_stuck (hu : Undisturbed s) (h : NeverMet maskBusy false 0 s) :
    (writeEnable s).Stops s 1 .busTimeout (stuckTally s.cfg) (· = s.loc.setBus 0) := (callSendCommand_stuck hu 1 1 _ none h).bind

theorem callWriteEnable_stuck (hu : Undisturbed s) (h : NeverMet maskBusy false 0 s) :
    (callWriteEnable s).Stops s 1 .busTimeout (stuckTally s.cfg) (· = s.loc.setBus 0) := by
  refine Res.Stops.recode (code := 1) (Res.Stops.call fun t hr hl => ?_) 1
  have henable := writeEnable_stuck (hr.undisturbed hu) (h.start hr)
  rwa [hr.cfg, hl] at henable

theorem resetMemory_stuck (hu : Undisturbed s) (h : NeverMet maskBusy false 0 s) :
    (resetMemory s).Stops s 1 .busTimeout (stuckTally s.cfg) (· = s.loc.setBus 0) := (callSendCommand_stuck hu 1 1 _ none h).bind

/-- RESET_MEMORY of a device that stays busy. -/
theorem resetMemory_stops (h : Answered (needsSend ++ needsSend ++ needsBusy s.cfg.resetWaitTicks.toNat) s) :
    (resetMemory s).Stops s 3 .deviceTimeout
      (Tally.add ⟨10, [txnCmd s.cfg.opResetEnable, txnCmd s.cfg.opResetMemory], 0, []⟩
        (turnsTally s.cfg s.cfg.resetWaitTicks.toNat)) (Local.Polling 0 s.loc) := by
  obtain ⟨l, t, hl, hr, hloc, heq⟩ := resetMemory_frames h.left
  have hwait := callWaitNotBusy_stops 3 3 (h.past hr hl rfl)
  rw [← heq, hr.cfg] at hwait
  refine (hwait.prepend hr hl).mono fun q ⟨⟨x, b, v, hregs⟩, hbuf⟩ => ⟨⟨x, b, v, ?_⟩, ?_⟩
  · rw [hregs, hloc]
    rfl
  · rw [hbuf, hloc]
    rfl

end Stuck

/-! ### ERASE and CHIP_ERASE (rules R161, R162) -/

/-- The frames of an erase up to the end of its device wait. -/
def eraseToWait (op : Cfg → Byte) (a : Option Addr24) (ms : Cfg → Nat) (s : State) : Res Unit :=
  (callWriteEnable s).bind fun _ s =>
  (callSendCommand 2 2 (op s.cfg) a s).bind fun _ s => callWaitNotBusy 3 3 (ticksOfMs s.cfg (ms s.cfg)) s

/-- The closing bus-idle wait of ERASE and the clearing of all flags. -/
def eraseClose (s : State) : Res Unit := ((callWait 4 maskBusy false s).orTimeout 4).bind fun _ s => briClearAll 5 s

theorem chipErase_eq (s : State) : chipErase s = eraseToWait (variantOp · .all) none (variantMs · .all) s := rfl

theorem erase_eq (addr : Word) {v : BlockSize} (hv : v ≠ .all) (s : State) :
    erase addr v s = (eraseToWait (fun _ => variantOp s.cfg v) (some (trunc24 addr)) (fun _ => variantMs s.cfg v) s).bind
      fun _ s => eraseClose s := by
  have h : ∀ op ms, eraseBlock addr op ms s
      = (eraseToWait (fun _ => op) (some (trunc24 addr)) (fun _ => ms) s).bind fun _ s => eraseClose s := fun op ms => by
    simp only [eraseBlock, eraseToWait, eraseClose, Res.bind_assoc]
  cases v with
  | b4K => exact h _ _
  | b32K => exact h _ _
  | b64K => exact h _ _
  | all => exact absurd rfl hv

section Erase

variable {s : State} {op : Cfg → Byte} {a : Option Addr24} {ms : Cfg → Nat} {x : Txn} {n : Word}

theorem eraseToWait_stuck (hu : Undisturbed s) (h : NeverMet maskBusy false 0 s) :
    (eraseToWait op a ms s).Stops s 1 .busTimeout (stuckTally s.cfg) (· = s.loc.setBus 0) := (callWriteEnable_stuck hu h).bind

section

variable (hx : commandTxn (op s.cfg) a = x) (hw : s.cfg.welRetry ≠ 0)
include hw

/-- The bus is never idle after write enable: no erase frame. -/
theorem eraseToWait_unsent (he : Answered needsEnable s) (h : NeverMet maskBusy false 11 s) :
    (eraseToWait op a ms s).Stops s 2 .busTimeout
      (Tally.add ⟨11, [txnCmd s.cfg.opWriteEnable, txnRdsr s.cfg], 0, []⟩ (stuckTally s.cfg)) (·.hbuf = s.loc.hbuf) := by
  refine (callWriteEnable_does he hw).bind_stops fun l t hl hr ht => ?_
  have hsend := callSendCommand_stuck (hr.undisturbed he.1) 2 2 (op t.cfg) a (h.past hr hl)
  rw [hr.cfg] at hsend ⊢
  exact (hsend.bind).mono fun q hq => by rw [hq, ht]; rfl

include hx

/-- The erase frame never completes. -/
theorem eraseToWait_unfinished (he : Answered (needsEnable ++ needsIssue) s) (h : NeverMet maskTc true 14 s) :
    (eraseToWait op a ms s).Stops s 2 .busTimeout
      (Tally.add ⟨11, [txnCmd s.cfg.opWriteEnable, txnRdsr s.cfg], 0, []⟩ (Tally.add ⟨3, [x], 0, []⟩ (stuckTally s.cfg)))
      (·.hbuf = s.loc.hbuf) := by
  refine (callWriteEnable_does he.left hw).bind_stops fun l t hl hr ht => ?_
  have hsend := callSendCommand_unfinished (he.past hr hl rfl) 2 2 (op t.cfg) a (h.past hr hl)
  rw [hr.cfg, hx] at hsend
  rw [hr.cfg]
  exact (hsend.bind).mono fun q hq => by rw [hq, ht]; rfl

/-- Write enable and the erase frame, and then the device wait. -/
theorem eraseToWait_frames (h : Answered (needsEnable ++ needsSend) s) :
    ∃ l t, tally l = ⟨16, [txnCmd s.cfg.opWriteEnable, txnRdsr s.cfg, x], 0, []⟩ ∧ Ran l s t
      ∧ t.loc = ((s.loc.polled s.cfg (inputByte s 10)).setDev s.cfg.welRetry).framed x s.cfg.busWaitTicks
      ∧ eraseToWait op a ms s = callWaitNotBusy 3 3 (ticksOfMs s.cfg (ms s.cfg)) t := by
  obtain ⟨l, hl, t, ht, hr, hloc⟩ := callWriteEnable_does h.left hw
  obtain ⟨m, hm, u, hu, hru, hlocu⟩ := callSendCommand_does (h.past hr hl rfl) 2 2 (op t.cfg) a
  have hran := hr.trans hru
  rw [hr.cfg, hx] at hm hlocu
  refine ⟨l ++ m, u, ?_, hran, by rw [hlocu, hloc], ?_⟩
  · rw [tally_append, hl, hm]
    rfl
  · rw [eraseToWait, ht, Res.bind_ok, hu, Res.bind_ok, hran.cfg]

/-- The device stays busy. -/
theorem eraseToWait_stops (hn : ticksOfMs s.cfg (ms s.cfg) = n)
    (h : Answered (needsEnable ++ needsSend ++ needsBusy n.toNat) s) :
    (eraseToWait op a ms s).Stops s 3 .deviceTimeout
      (Tally.add ⟨16, [txnCmd s.cfg.opWriteEnable, txnRdsr s.cfg, x], 0, []⟩ (turnsTally s.cfg n.toNat))
      (Local.Polling 0 s.loc) := by
  obtain ⟨l, t, hl, hr, hloc, heq⟩ := eraseToWait_frames (ms := ms) hx hw h.left
  have hwait := callWaitNotBusy_stops 3 3 (h.past hr hl rfl)
  rw [heq, hn]
  rw [hr.cfg] at hwait
  refine (hwait.prepend hr hl).mono fun q ⟨⟨y, b, v, hregs⟩, hbuf⟩ => ⟨⟨y, b, v, ?_⟩, ?_⟩
  · rw [hregs, hloc]
    rfl
  · rw [hbuf, hloc]
    rfl

/-- The device is not busy. -/
theorem eraseToWait_does (hn : ticksOfMs s.cfg (ms s.cfg) = n) (hn0 : n ≠ 0) (h : Answered needsChip s) :
    (eraseToWait op a ms s).Does s () ⟨22, [txnCmd s.cfg.opWriteEnable, txnRdsr s.cfg, x, txnRdsr s.cfg], 0, []⟩
      (· = (s.loc.polled s.cfg (inputByte s 21)).setDev n) := by
  have h' : Answered ((needsEnable ++ needsSend) ++ needsStatus .deviceIdle) s := h
  obtain ⟨l, t, hl, hr, hloc, heq⟩ := eraseToWait_frames (ms := ms) hx hw h'.left
  have hwait := callWaitNotBusy_does (h'.past hr hl rfl) 3 3 hn0
  have hbyte : inputByte t 5 = inputByte s 21 := hr.byteAfter hl 5
  rw [heq, hn]
  rw [hbyte, hloc, hr.cfg] at hwait
  exact hwait.prepend hr hl

end

end Erase

end Sys2Proof.Machine
end

section
/-! What ERASE, CHIP_ERASE and ABI_ERASE_RANGE do when their waits end (rules R161, R162, R184), and device waits that use up
their budget (rule R122). -/

namespace Sys2Proof.Machine

/-! ### ERASE of a block -/

theorem eraseTxn_of_ne (c : Cfg) {v : BlockSize} (hv : v ≠ .all) (a : Addr24) : eraseTxn c v a = txnCmda (variantOp c v) a :=
  if_neg hv

section EraseBlock

variable {s : State} {addr : Word} {v : BlockSize}

theorem eraseClose_runs (h : Answered [.busIdle, .any] s) :
    (eraseClose s).Runs s () [.flags (drawAt s 0).flags, .clearAll] (· = s.loc.setBus s.cfg.busWaitTicks) := by
  have hwait := (callWait_runs h busIdle_met 4).orTimeout 4
  refine Res.Runs.bind (m := [.clearAll]) hwait fun t hr ht => ?_
  have hclear := briClearAll_runs (hr.undisturbed h.1) 5
  rwa [ht] at hclear

/-- ERASE of a block up to its closing wait. -/
theorem erase_toWait (hv : v ≠ .all) (hw : s.cfg.welRetry ≠ 0) (hn : variantTicks s.cfg v ≠ 0) (h : Answered needsChip s) :
    ∃ l t, tally l = ⟨22, eraseFrames s.cfg (variantOp s.cfg v) (trunc24 addr), 0, []⟩ ∧ Ran l s t
      ∧ t.loc = (s.loc.polled s.cfg (inputByte s 21)).setDev (variantTicks s.cfg v) ∧ erase addr v s = eraseClose t := by
  obtain ⟨l, hl, t, ht, hr, hloc⟩ := eraseToWait_does (op := fun _ => variantOp s.cfg v) (a := some (trunc24 addr))
    (ms := fun _ => variantMs s.cfg v) rfl hw rfl hn h
  exact ⟨l, t, hl, hr, hloc, by rw [erase_eq addr hv, ht, Res.bind_ok]⟩

/-- ERASE of a block whose waits end at once; the last call clears all flags. -/
theorem erase_runs (hv : v ≠ .all) (hw : s.cfg.welRetry ≠ 0) (hn : variantTicks s.cfg v ≠ 0) (h : Answered needsErase s) :
    ∃ l, tally (l ++ [.clearAll]) = ⟨24, eraseFrames s.cfg (variantOp s.cfg v) (trunc24 addr), 0, []⟩
      ∧ (erase addr v s).Runs s () (l ++ [.clearAll])
        (· = (s.loc.polled s.cfg (inputByte s 21)).setDev (variantTicks s.cfg v)) := by
  have h' : Answered (needsChip ++ [.busIdle, .any]) s := h
  obtain ⟨l, t, hl, hr, hloc, heq⟩ := erase_toWait (addr := addr) hv hw hn h'.left
  obtain ⟨u, hu, hru, hlocu⟩ := eraseClose_runs (h'.past hr hl rfl)
  refine ⟨l ++ [.flags (drawAt t 0).flags], ?_, u, by rw [heq, hu], ?_, ?_⟩
  · rw [List.append_assoc, tally_append, hl]
    rfl
  · rw [List.append_assoc]
    exact hr.trans hru
  · rw [hlocu, hloc, hr.cfg]
    rfl

/-- The closing wait of ERASE is never given an idle bus. -/
theorem erase_unclosed (hv : v ≠ .all) (hw : s.cfg.welRetry ≠ 0) (hn : variantTicks s.cfg v ≠ 0) (h : Answered needsChip s)
    (hno : NeverMet maskBusy false 22 s) :
    (erase addr v s).Stops s 4 .busTimeout
      (Tally.add ⟨22, eraseFrames s.cfg (variantOp s.cfg v) (trunc24 addr), 0, []⟩ (stuckTally s.cfg))
      (· = ((s.loc.polled s.cfg (inputByte s 21)).setDev (variantTicks s.cfg v)).setBus 0) := by
  obtain ⟨l, t, hl, hr, hloc, heq⟩ := erase_toWait (addr := addr) hv hw hn h
  have hwait := callWait_stuck (hr.undisturbed h.1) 4 (hno.past hr hl) 4
  rw [hr.cfg, hloc] at hwait
  rw [heq]
  exact (Res.Stops.bind hwait).prepend hr hl

end EraseBlock

/-- Settles O32: the four frames, the closing wait, the clearing of all flags. -/
theorem eraseCompletes : Obligations.EraseCompletes := by
  intro s addr v hv h hw hn hi
  obtain ⟨l, hl, hruns⟩ := erase_runs (addr := addr) hv (s := enterProc .erase s) hw hn (h.start (.enter .erase s))
  obtain ⟨u, hu, hr, hloc⟩ := hruns
  obtain ⟨t, q, ht, rfl, hend, hcalls⟩ := finish_runs (fun _ => 0) id
    (P := (· = (s.loc.polled s.cfg (inputByte s 21)).setDev (variantTicks s.cfg v)))
    ⟨u, hu, (Ran.enter .erase s).trans hr, hloc⟩
  have hexec : exec (.erase addr v) s = .next t := by
    rw [exec_erase, gated_open hi]
    exact ht
  rw [List.nil_append, hl] at hend
  exact ⟨t, hexec, hend.seq, hend.frames, by rw [hcalls]; simp, hend.sameSurroundings rfl, hend.lastConfigured rfl, hend.tookSteps⟩

/-! ### Every erase -/

section EraseAny

variable {s : State} {i : Instr} {addr : Word} {v : BlockSize}

/-- An erase of any variant that fails before its closing wait, from the state its record was entered in. -/
theorem eraseAny_stops {c : Byte} {e : Cause} {T : Tally} {P : Local → Prop}
    (hiv : i = .erase addr v ∨ i = .chipErase ∧ v = .all) (hi : s.seq.inited = true) (hu : Undisturbed s)
    (h : ∀ op a ms t, Ran [] s t → t.loc = s.loc → commandTxn (op t.cfg) a = eraseTxn s.cfg v (trunc24 addr) →
      ticksOfMs t.cfg (ms t.cfg) = variantTicks s.cfg v → (eraseToWait op a ms t).Stops t c e T P) :
    ∃ t q, exec i s = .next t ∧ P q ∧ Ended (T.add ⟨1, [], 0, []⟩) (failSeq c e q.regs) q s t
      ∧ (newCalls s t).getLast? = some .clearAll := by
  have hchip : v = .all → ∀ t, Ran [] s t → t.loc = s.loc → (chipErase t).Stops t c e T P := by
    rintro rfl t hr hl
    exact h (variantOp · .all) none (variantMs · .all) t hr hl (by rw [hr.cfg]; rfl) (by rw [hr.cfg]; rfl)
  rcases hiv with rfl | ⟨rfl, rfl⟩
  · by_cases hv : v = .all
    · subst hv
      exact run_stops (exec_erase addr .all s) hi hu fun t hr hl =>
        Res.Stops.call fun u hru hlu => hchip rfl u (by simpa using hr.trans hru) (hlu.trans hl)
    · refine run_stops (exec_erase addr v s) hi hu fun t hr hl => ?_
      rw [erase_eq addr hv]
      refine Res.Stops.bind (h (fun _ => variantOp t.cfg v) (some (trunc24 addr)) (fun _ => variantMs t.cfg v) t hr hl ?_ ?_)
      · rw [hr.cfg, eraseTxn_of_ne _ hv]
        rfl
      · rw [hr.cfg]
        rfl
  · exact run_stops (exec_chipErase s) hi hu fun t hr hl => hchip rfl t hr hl

/-- The whole-chip erase, by either instruction, whose waits end at once. -/
theorem chipErase_does (h : Answered needsChip s) (hw : s.cfg.welRetry ≠ 0) (hn : variantTicks s.cfg .all ≠ 0) :
    (chipErase s).Does s () ⟨22, [txnCmd s.cfg.opWriteEnable, txnRdsr s.cfg, txnCmd s.cfg.opBulkErase, txnRdsr s.cfg], 0, []⟩
      (· = (s.loc.polled s.cfg (inputByte s 21)).setDev (variantTicks s.cfg .all)) :=
  eraseToWait_does (op := (variantOp · .all)) (a := none) (ms := (variantMs · .all)) rfl hw rfl hn h

/-- The same, after a register write. -/
theorem chipErase_does_from {t : State} (hr : Ran [] s t) (hl : t.loc = s.loc) (h : Answered needsChip s)
    (hw : s.cfg.welRetry ≠ 0) (hn : variantTicks s.cfg .all ≠ 0) :
    (chipErase t).Does t () ⟨22, [txnCmd s.cfg.opWriteEnable, txnRdsr s.cfg, txnCmd s.cfg.opBulkErase, txnRdsr s.cfg], 0, []⟩
      (· = (s.loc.polled s.cfg (inputByte s 21)).setDev (variantTicks s.cfg .all)) := by
  have hchip := chipErase_does (h.start hr) (by rwa [hr.cfg]) (by rwa [hr.cfg])
  have hbyte : inputByte t 21 = inputByte s 21 := hr.inputByte 21
  rwa [hbyte, hr.cfg, hl] at hchip

end EraseAny

/-- Settles O33: CHIP_ERASE, and ERASE, which calls it for the whole-chip variant. -/
theorem chipEraseCompletes : Obligations.ChipEraseCompletes := by
  intro s i hi h hw hn hinit
  obtain ⟨t, q, hexec, rfl, hend⟩ : ∃ t q, exec i s = .next t
      ∧ q = (s.loc.polled s.cfg (inputByte s 21)).setDev (variantTicks s.cfg .all)
      ∧ Ended ⟨22, [txnCmd s.cfg.opWriteEnable, txnRdsr s.cfg, txnCmd s.cfg.opBulkErase, txnRdsr s.cfg], 0, []⟩
        (okSeq 0 q.regs) q s t := by
    rcases hi with rfl | ⟨addr, rfl⟩
    · exact run_does (value := fun _ => (0 : DWord)) (exec_chipErase s) hinit fun t hr hl => chipErase_does_from hr hl h hw hn
    · exact run_does (value := fun _ => (0 : DWord)) (exec_erase addr .all s) hinit fun t hr hl => Res.Does.call fun u hru hlu => by
        exact chipErase_does_from (by simpa using hr.trans hru) (hlu.trans hl) h hw hn
  exact ⟨t, hexec, hend.seq, hend.frames, hend.sameSurroundings rfl, hend.lastConfigured rfl, hend.tookSteps⟩

/-! ### A device that stays busy -/

/-- What is left of a poll that failed: `TMO_DEV` at zero, the buffer as it was. -/
theorem Ended.polling {T : Tally} {c : Byte} {e : Cause} {q : Local} {s t : State} (h : Ended T (failSeq c e q.regs) q s t)
    (hq : Local.Polling 0 s.loc q) : t.seq.tmoDev = 0 ∧ Machine.sameSurroundings s t := by
  refine ⟨?_, h.sameSurroundings hq.hbuf⟩
  obtain ⟨x, b, v, hregs⟩ := hq.regs
  rw [h.seq, hregs]
  rfl

/-- Settles O21: the device wait of WAIT_NOT_BUSY, of RESET_MEMORY and of every erase. -/
theorem waitNotBusyTimesOut : Obligations.WaitNotBusyTimesOut := by
  intro s hi
  refine ⟨fun n h => ?_, fun h => ?_, ?_⟩
  · obtain ⟨t, q, hexec, hq, hend, hlast⟩ := run_stops (exec_waitNotBusy n s) hi h.1 fun t hr hl => by
      have hwait := waitNotBusy_stops (h.start hr)
      rwa [hr.cfg, hl] at hwait
    obtain ⟨hdev, hsame⟩ := hend.polling hq
    exact ⟨t, hexec, by rw [hend.seq]; rfl, by rw [hend.seq]; rfl, by rw [hend.seq]; rfl, by rw [hend.seq]; rfl,
      by rw [hend.seq]; rfl, hdev, hend.frames.trans (List.append_nil _), hend.ticks, hlast, hsame, hend.tookSteps⟩
  · obtain ⟨t, q, hexec, hq, hend, hlast⟩ := run_stops (exec_resetMemory s) hi h.1 fun t hr hl => by
      have hreset := resetMemory_stops (s := t) (by rw [hr.cfg]; exact h.start hr)
      rwa [hr.cfg, hl] at hreset
    obtain ⟨hdev, hsame⟩ := hend.polling hq
    exact ⟨t, hexec, by rw [hend.seq]; rfl, by rw [hend.seq]; rfl, by rw [hend.seq]; rfl, by rw [hend.seq]; rfl,
      by rw [hend.seq]; rfl, hdev, hend.ticks.trans (Nat.zero_add _), hend.frames.trans (List.append_nil _), hlast, hsame,
      hend.tookSteps⟩
  · intro i addr v hiv n hw h
    obtain ⟨t, q, hexec, hq, hend, hlast⟩ := eraseAny_stops hiv hi h.1 fun op a ms t hr hl hx hn => by
      have herase := eraseToWait_stops hx (by rwa [hr.cfg]) hn (h.start hr)
      rwa [hr.cfg, hl] at herase
    obtain ⟨hdev, hsame⟩ := hend.polling hq
    exact ⟨t, hexec, by rw [hend.seq]; rfl, by rw [hend.seq]; rfl, by rw [hend.seq]; rfl, by rw [hend.seq]; rfl,
      by rw [hend.seq]; rfl, hdev, hend.ticks.trans (Nat.zero_add _), hend.frames.trans (List.append_nil _), hlast, hsame,
      hend.tookSteps⟩

end Sys2Proof.Machine
end

section
/-! ABI_ERASE_RANGE: its loop over the blocks of the range (rules R98, R184). -/

namespace Sys2Proof.Machine

theorem trunc24_eq (a : Word) : trunc24 a = BitVec.ofNat 24 a.toNat := by
  apply BitVec.eq_of_toNat_eq
  simp [trunc24]

/-- The erase start, as a word. -/
theorem abiEraseStart_eq {c : Cfg} (h : c.wf = true) (first : Word) :
    abiEraseStart c first = BitVec.ofNat 32 (rangeStart c first) := by
  rw [← abiEraseStart_toNat h]
  simp

/-- The block loop ends once the block is past the end of the range. -/
theorem eraseBlocks_past {s : State} (h : s.seq.erEnd < s.seq.erAddr) (k : Nat) : eraseBlocks k s = .ok () s := by
  cases k with
  | zero => exact if_pos h
  | succ k => exact if_pos h

def Local.setErAddr (n : Word) (q : Local) : Local := { q with regs := { q.regs with erAddr := n } }

/-- The local parts after `m` blocks. -/
def erasedAfter : Nat → State → Local
  | 0, s => s.loc
  | m + 1, s => ((s.loc.polled s.cfg (inputByte s (24 * m + 21))).setDev (variantTicks s.cfg .b4K)).setErAddr
      (s.loc.regs.erAddr + BitVec.ofNat 32 ((m + 1) * s.cfg.subsectorSize))

section Blocks

variable {s : State} {first last : Word} {j : Nat}

/-- ERASE of a subsector, called for a block of the range. -/
theorem callErase_does (ph : Nat) (addr : Word) (h : Answered needsErase s) (hw : s.cfg.welRetry ≠ 0)
    (hn : variantTicks s.cfg .b4K ≠ 0) :
    (call ph .erase s (erase addr .b4K)).Does s () ⟨24, eraseFrames s.cfg s.cfg.opErase4K (trunc24 addr), 0, []⟩
      (· = (s.loc.polled s.cfg (inputByte s 21)).setDev (variantTicks s.cfg .b4K)) := Res.Does.call fun t hr hl => by
  obtain ⟨l, hl', hruns⟩ := erase_runs (addr := addr) (v := .b4K) nofun (by rwa [hr.cfg]) (by rwa [hr.cfg]) (h.start hr)
  have hbyte : inputByte t 21 = inputByte s 21 := hr.inputByte 21
  rw [hbyte, hr.cfg, hl] at hruns
  rw [hr.cfg] at hl'
  exact ⟨_, hl', hruns⟩

/-- One block of the range. -/
theorem eraseBlocks_turn (hat : BlockAt s.cfg first last j s.seq) (hwf : s.cfg.wf = true)
    (hj : j < blockCount s.cfg first last) (h : Answered needsErase s) (hw : s.cfg.welRetry ≠ 0)
    (hn : variantTicks s.cfg .b4K ≠ 0) :
    ∃ l t, tally l = ⟨24, eraseFrames s.cfg s.cfg.opErase4K
        (BitVec.ofNat 24 (rangeStart s.cfg first + j * s.cfg.subsectorSize)), 0, []⟩
      ∧ Ran l s t ∧ t.loc = erasedAfter 1 s ∧ BlockAt s.cfg first last (j + 1) t.seq
      ∧ ∀ k, eraseBlocks (k + 1) s = eraseBlocks k t := by
  obtain ⟨l, hl, t, ht, hr, hloc⟩ := callErase_does 1 s.seq.erAddr h hw hn
  have hseq := seq_of_loc hloc
  have hset : Ran [] t (setErAddr (t.seq.erAddr + BitVec.ofNat 32 t.cfg.subsectorSize) t) := .of_env_eq rfl rfl rfl rfl rfl
  have hran := hr.trans hset
  rw [List.append_nil] at hran
  refine ⟨l, _, ?_, hran, ?_, ?_, fun k => ?_⟩
  · rw [hl, trunc24_eq, hat.erAddr]
  · change t.loc.setErAddr (t.loc.regs.erAddr + BitVec.ofNat 32 t.cfg.subsectorSize) = _
    rw [hloc, hr.cfg, erasedAfter, Nat.mul_zero, Nat.zero_add, Nat.one_mul]
    rfl
  · have hat' : BlockAt s.cfg first last j t.seq := ⟨by rw [hseq]; exact hat.erAddr, by rw [hseq]; exact hat.erEnd⟩
    exact hat'.succ hwf hj (by rw [hr.cfg])
  · rw [eraseBlocks, if_neg (by rw [hat.lt_iff hwf]; exact not_not.mpr hj), ht, Res.bind_ok]

theorem erasedAfter_succ {t : State} {l : List BusCall} {T : Tally} (hr : Ran l s t) (hl : tally l = T) (hT : T.steps = 24)
    (ht : t.loc = erasedAfter 1 s) : ∀ m, erasedAfter m t = erasedAfter (m + 1) s
  | 0 => ht
  | m + 1 => by
    have hbyte : inputByte t (24 * m + 21) = inputByte s (24 * (m + 1) + 21) := by
      rw [hr.byteAfter hl, hT]
      congr 1
      omega
    have haddr : t.loc.regs.erAddr = s.loc.regs.erAddr + BitVec.ofNat 32 s.cfg.subsectorSize := by
      rw [ht, erasedAfter, Nat.zero_add, Nat.one_mul]
      rfl
    rw [erasedAfter, erasedAfter, hbyte, haddr, hr.cfg, BitVec.add_assoc, ← BitVec.ofNat_add, Nat.succ_mul (m + 1),
      Nat.add_comm s.cfg.subsectorSize, ht]
    rfl

/-- The frames of `m` blocks from block `j` on. -/
def blockFrames (c : Cfg) (lo j m : Nat) : List Txn :=
  (List.range m).flatMap fun i => eraseFrames c c.opErase4K (BitVec.ofNat 24 (lo + (j + i) * c.subsectorSize))

theorem blockFrames_succ (c : Cfg) (lo j m : Nat) : blockFrames c lo j (m + 1)
    = eraseFrames c c.opErase4K (BitVec.ofNat 24 (lo + j * c.subsectorSize)) ++ blockFrames c lo (j + 1) m := by
  simp only [blockFrames, List.range_succ_eq_map, List.flatMap_cons, List.flatMap_map, Nat.add_zero, Nat.succ_eq_add_one]
  simp only [Nat.add_assoc, Nat.add_comm 1]

/-- The block loop, `m` blocks from its end. -/
theorem eraseBlocks_does {m : Nat} : ∀ {j k : Nat} {s : State}, BlockAt s.cfg first last j s.seq → s.cfg.wf = true →
    j + m = blockCount s.cfg first last → s.seq.erEnd.toNat + 1 - s.seq.erAddr.toNat ≤ k → s.cfg.welRetry ≠ 0 →
    variantTicks s.cfg .b4K ≠ 0 → Undisturbed s ∧ s.cfg.busWaitTicks ≠ 0 ∧ answers s 0 (rounds m needsErase) = true →
    (eraseBlocks k s).Does s () ⟨24 * m, blockFrames s.cfg (rangeStart s.cfg first) j m, 0, []⟩ (· = erasedAfter m s) := by
  induction m with
  | zero =>
    intro j k s hat hwf hj _ _ _ _
    rw [eraseBlocks_past ((hat.lt_iff hwf).mpr (by omega))]
    exact .ok () rfl
  | succ m ih =>
    intro j k s hat hwf hj hk hw hn h
    have hlt : j < blockCount s.cfg first last := by omega
    have h : Answered (needsErase ++ rounds m needsErase) s := Answered.cast h (rounds_succ m _)
    obtain ⟨l, t, hl, hr, hloc, hat', hloop⟩ := eraseBlocks_turn hat hwf hlt h.left hw hn
    have hin : s.seq.erAddr.toNat ≤ s.seq.erEnd.toNat := by
      have := (not_congr (hat.lt_iff hwf)).mpr (not_not.mpr hlt)
      rw [BitVec.lt_def] at this
      omega
    obtain ⟨k, rfl⟩ : ∃ i, k = i + 1 := ⟨k - 1, by omega⟩
    have hfuel : t.seq.erEnd.toNat + 1 - t.seq.erAddr.toNat ≤ k := by
      have hz := Cfg.wf_subsectorSize_pos hwf
      have h1 := hat'.erAddr
      have h2 := hat.erAddr
      rw [hat'.erEnd, h1]
      rw [hat.erEnd, h2] at hk
      rw [Nat.succ_mul]
      omega
    have hrest := ih (s := t) (by rwa [hr.cfg]) (by rwa [hr.cfg]) (j := j + 1) (k := k) (by rw [hr.cfg]; omega) hfuel
      (by rwa [hr.cfg]) (by rwa [hr.cfg]) (h.past hr hl rfl)
    rw [hr.cfg, erasedAfter_succ hr hl rfl hloc, ← hloop] at hrest
    refine (hrest.prepend hr hl).cast ?_
    simp only [Tally.add, blockFrames_succ, Nat.mul_succ, Nat.add_comm 24, Nat.add_zero, List.append_nil]

end Blocks

/-- Settles O37: the range is empty, or the loop runs over its blocks. -/
theorem abiEraseRangeCompletes : Obligations.AbiEraseRangeCompletes := by
  intro s first last z lo hi b hwf hinit
  have hstart : ∃ t, t = setErAddr (abiEraseStart s.cfg first) (setErEnd (abiMask s.cfg last) (enterProc .abiEraseRange s)) :=
    ⟨_, rfl⟩
  obtain ⟨u, hu⟩ := hstart
  have hat : BlockAt s.cfg first last 0 u.seq := hu ▸ blockAt_zero hwf first last (enterProc .abiEraseRange s)
  have hexec : exec (.abiEraseRange first last) s
      = finishAbi (eraseBlocks (u.seq.erEnd.toNat + 1 - u.seq.erAddr.toNat) u) := by
    rw [exec_abiEraseRange, gated_open hinit, hu]
    rfl
  refine ⟨fun hlt => ?_, fun hle hw hn h => ?_⟩
  · have hpast : u.seq.erEnd < u.seq.erAddr := by
      rw [BitVec.lt_def, hat.erAddr, hat.erEnd, Nat.zero_mul, Nat.add_zero]
      exact hlt
    refine ⟨_, hexec.trans (congrArg finishAbi (eraseBlocks_past hpast _)), ?_, by rw [hu]; rfl, by rw [hu]; rfl, by rw [hu]; rfl,
      by rw [hu]; rfl, by rw [hu]; rfl⟩
    rw [hu, abiEraseStart_eq hwf]
    rfl
  · have hrun : Ran [] s u := by
      rw [hu]
      exact .of_env_eq rfl rfl rfl rfl rfl
    have hcount : b = blockCount s.cfg first last := (if_pos hle).symm
    have hcfg := hrun.cfg
    have hblocks := eraseBlocks_does (s := u) (m := b) (j := 0) (by rwa [hcfg]) (by rwa [hcfg])
      (by rw [hcfg, Nat.zero_add, hcount]) le_rfl (by rwa [hcfg]) (by rwa [hcfg]) (h.start hrun)
    obtain ⟨t, q, ht, rfl, hend⟩ := finish_does (fun _ => 1) (fun _ => 1) (hblocks.after hrun)
    obtain ⟨n, hn'⟩ : ∃ n, b = n + 1 := ⟨hi / z - lo / z, rfl⟩
    have hbyte : inputByte u (24 * n + 21) = inputByte s (24 * (n + 1) - 3) := by
      rw [hrun.inputByte]
      congr 1
      simp only [List.length_nil]
      omega
    have hloc : u.loc.regs = { s.loc.regs with erAddr := BitVec.ofNat 32 lo, erEnd := last &&& s.cfg.abiAddrMask } := by
      rw [hu, abiEraseStart_eq hwf]
      rfl
    have haddr : BitVec.ofNat 32 lo + BitVec.ofNat 32 ((n + 1) * z) = BitVec.ofNat 32 (lo + (n + 1) * z) :=
      (BitVec.ofNat_add _ _).symm
    have hregs : (erasedAfter b u).regs = { s.loc.regs with
        erAddr := BitVec.ofNat 32 (lo + b * z), erEnd := last &&& s.cfg.abiAddrMask, txn := txnRdsr s.cfg
        tmoBus := s.cfg.busWaitTicks, tmoDev := variantTicks s.cfg .b4K, srSnap := inputByte s (24 * b - 3) } := by
      rw [hn', ← haddr, ← hbyte]
      simp only [erasedAfter, Local.setErAddr, Local.setDev, Local.polled, hloc, hcfg]
      rfl
    have hbri : (erasedAfter b u).bri = { s.bri with cfg := txnRdsr s.cfg } := by
      rw [hn', erasedAfter, hcfg, hu]
      rfl
    have hbuf : (erasedAfter b u).hbuf = s.host.hbuf := by
      rw [hn', erasedAfter, hu]
      rfl
    rw [hregs] at hend
    refine ⟨t, hexec.trans ht, hend.seq, ?_, hend.sameSurroundings hbuf, ?_, hend.tookSteps⟩
    · rw [hend.frames, hcfg]
      simp only [blockFrames, Nat.zero_add]
      rfl
    · change t.bri = { s.bri with cfg := t.seq.txn }
      rw [hend.bri, hbri, hend.seq]
      rfl

end Sys2Proof.Machine
end

section
/-! READ whose waits end, and READ that fails in its byte loop or its completion wait (rule R141); the bus waits of every
operation that use up their budget (rules R218, R232). -/

namespace Sys2Proof.Machine

/-! ### The byte loop of READ -/

/-- From `q0`, `k` bytes have been stored from offset 0 on. -/
structure Local.Stored (byte : Nat → Byte) (k : Nat) (q0 q : Local) : Prop where
  regs : q.regs = { q0.regs with idx := BitVec.ofNat 32 k }
  bri : q.bri = q0.bri
  wf : Mem.wf q.hbuf = true
  read : ∀ x, memRead q.hbuf x = if x < k then byte x else memRead q0.hbuf x

theorem Local.Stored.store {byte : Nat → Byte} {k : Nat} {q0 q : Local} (h : Local.Stored byte k q0 q) (hk : k < 2 ^ 32) :
    Local.Stored byte (k + 1) q0
      { q with regs := { q.regs with idx := q.regs.idx + 1 }, hbuf := memWrite q.hbuf q.regs.idx.toNat (byte k) } where
  regs := by
    simp only [h.regs]
    congr 1
    exact (BitVec.ofNat_add k 1).symm
  bri := h.bri
  wf := memWrite_wf _ _ h.wf
  read x := by
    have hidx : q.regs.idx.toNat = k := by
      rw [h.regs, BitVec.toNat_ofNat, Nat.mod_eq_of_lt hk]
    simp only [hidx, memRead_memWrite _ _ _ h.wf, h.read x]
    by_cases hx : x = k
    · simp [hx]
    · have hlt : x < k + 1 ↔ x < k := by omega
      simp only [if_neg hx, hlt]

section ReadBytes

variable {s : State} {byte : Nat → Byte} {q0 : Local}

/-- A turn of the byte loop: a flag, a byte, which is stored. -/
theorem readBytes_turn {i : Nat} (hst : Local.Stored byte i q0 s.loc) (hbus : q0.regs.tmoBus = s.cfg.busWaitTicks)
    (hi : i < 2 ^ 32) (hb : inputByte s 1 = byte i) (h : Answered [.ready, .any] s) :
    ∃ l t, tally l = ⟨2, [], 0, []⟩ ∧ Ran l s t ∧ Local.Stored byte (i + 1) q0 t.loc
      ∧ ∀ m, readBytes (m + 1) s = readBytes m t := by
  obtain ⟨t, ht, hr, hl⟩ := (callWait_runs h ready_met 4).orTimeout 2
  have htl : t.loc = s.loc := by
    rw [hl, ← hbus]
    have : s.loc.regs.tmoBus = q0.regs.tmoBus := by rw [hst.regs]
    rw [← this]
    rfl
  obtain ⟨u, hu, hru, hlu⟩ := briReadByte_runs (hr.undisturbed h.1) 5
  have hbyte : inputByte t 0 = byte i := (hr.inputByte 0).trans hb
  rw [hbyte] at hu hru
  have hset : Ran [] u (setIdx (u.seq.idx + 1) (hbufWrite u.seq.idx (byte i) u)) := .of_env_eq rfl rfl rfl rfl rfl
  refine ⟨_, _, rfl, (hr.trans hru).trans hset, ?_, fun m => ?_⟩
  · have hstore := hst.store hi
    rw [← htl, ← hlu] at hstore
    exact hstore
  · rw [readBytes, ht, Res.bind_ok, readOneByte, hu]
    rfl

/-- `k` turns of the byte loop. -/
theorem readBytes_turns {k : Nat} : ∀ {i : Nat} {s : State}, Local.Stored byte i q0 s.loc →
    q0.regs.tmoBus = s.cfg.busWaitTicks → i + k < 2 ^ 32 → (∀ j, j < k → inputByte s (2 * j + 1) = byte (i + j)) →
    Undisturbed s ∧ s.cfg.busWaitTicks ≠ 0 ∧ answers s 0 (rounds k [.ready, .any]) = true →
    ∃ l t, tally l = ⟨2 * k, [], 0, []⟩ ∧ Ran l s t ∧ Local.Stored byte (i + k) q0 t.loc
      ∧ ∀ m, readBytes (k + m) s = readBytes m t := by
  induction k with
  | zero =>
    intro i s hst _ _ _ _
    exact ⟨[], s, rfl, .refl s, hst, fun m => by rw [Nat.zero_add]⟩
  | succ k ih =>
    intro i s hst hbus hi hb h
    have h : Answered ([.ready, .any] ++ rounds k [.ready, .any]) s := Answered.cast h (rounds_succ k _)
    obtain ⟨l, t, hl, hr, hst', hloop⟩ := readBytes_turn hst hbus (by omega) (hb 0 (Nat.succ_pos k)) h.left
    obtain ⟨m, u, hm, hru, hstu, hloop'⟩ := ih hst' (by rw [hr.cfg]; exact hbus) (by omega)
      (fun j hj => by
        have hnext := hb (j + 1) (Nat.succ_lt_succ hj)
        rw [hr.byteAfter hl, show i + 1 + j = i + (j + 1) by omega, ← hnext]
        congr 1
        simp only
        omega) (h.past hr hl rfl)
    refine ⟨l ++ m, u, ?_, hr.trans hru, by rwa [Nat.add_assoc, Nat.add_comm 1] at hstu, fun n => ?_⟩
    · rw [tally_append, hl, hm]
      simp [Tally.add, Nat.mul_succ, Nat.add_comm]
    · rw [← hloop', ← hloop]
      congr 1
      omega

end ReadBytes

/-! ### READ -/

def Local.setIdx (n : Word) (q : Local) : Local := { q with regs := { q.regs with idx := n } }

/-- The local parts after the frame of a READ. -/
def readStart (addr len : Word) (s : State) : Local :=
  (s.loc.framed (txnQread s.cfg (trunc24 addr) len) s.cfg.busWaitTicks).setIdx 0

/-- The `x`-th byte a READ pops when its waits end at once. -/
def poppedByte (s : State) (x : Nat) : Byte := inputByte s (2 * x + 4)

section Read

variable {s : State} {addr len : Word}

/-- The rest of READ: the bytes left, the completion wait, the clearing of transfer-complete. -/
def readRest (n : Nat) (s : State) : Res Unit :=
  (readBytes n s).bind fun _ s => ((callWait 6 maskTc true s).orTimeout 3).bind fun _ s => briClearTc 7 s

/-- The frame of a READ and its first `k` bytes. -/
theorem read_prefix {k : Nat} (h : Answered (needsRead k) s) (hlen : len ≠ 0) (hk : k ≤ len.toNat)
    (hwf : Mem.wf s.host.hbuf = true) :
    ∃ l t, tally l = ⟨3 + 2 * k, [txnQread s.cfg (trunc24 addr) len], 0, []⟩ ∧ Ran l s t
      ∧ Local.Stored (poppedByte s) k (readStart addr len s) t.loc ∧ read addr len s = readRest (len.toNat - k) t := by
  obtain ⟨t, ht, hr, hl⟩ := callIssue_runs (Answered.left h) 1 1 (txnQread s.cfg (trunc24 addr) len)
  have hset : Ran [] t (setIdx 0 t) := .of_env_eq rfl rfl rfl rfl rfl
  have hrs := hr.trans hset
  have hloc : (setIdx 0 t).loc = readStart addr len s := by
    change t.loc.setIdx 0 = _
    rw [hl]
    rfl
  have hstart : Local.Stored (poppedByte s) 0 (readStart addr len s) (setIdx 0 t).loc := by
    rw [hloc]
    exact ⟨rfl, rfl, hwf, fun x => by simp⟩
  obtain ⟨m, u, hm, hru, hst, hloop⟩ := readBytes_turns (k := k) hstart (by rw [hrs.cfg]; rfl)
    (by have := len.isLt; omega) (fun j _ => by rw [hrs.inputByte, poppedByte]; congr 1; simp; omega) (Answered.after h hrs rfl)
  have htally : tally ([.flags (drawAt s 0).flags, .configure (txnQread s.cfg (trunc24 addr) len), .trigger] ++ [] ++ m)
      = ⟨3 + 2 * k, [txnQread s.cfg (trunc24 addr) len], 0, []⟩ := by
    rw [tally_append, hm]
    rfl
  refine ⟨_, u, htally, hrs.trans hru, by rwa [Nat.zero_add] at hst, ?_⟩
  rw [read, if_neg hlen, ht, Res.bind_ok, readRest, ← hloop, Nat.add_sub_cancel' hk]

/-- READ whose waits end at once. -/
theorem read_does (h : Answered (needsRead len.toNat ++ [.complete, .any]) s) (hlen : len ≠ 0)
    (hwf : Mem.wf s.host.hbuf = true) :
    (read addr len s).Does s () ⟨2 * len.toNat + 5, [txnQread s.cfg (trunc24 addr) len], 0, []⟩
      (Local.Stored (poppedByte s) len.toNat (readStart addr len s)) := by
  obtain ⟨l, t, hl, hr, hst, heq⟩ := read_prefix (addr := addr) h.left hlen le_rfl hwf
  have h' := h.past hr hl (by simp [needsRead, needsIssue]; omega)
  have hwait := (callWait_runs h' complete_met 6).orTimeout 3
  have hrest : (readRest (len.toNat - len.toNat) t).Does t () ⟨2, [], 0, []⟩
      (Local.Stored (poppedByte s) len.toNat (readStart addr len s)) := by
    rw [Nat.sub_self]
    obtain ⟨u, hu, hru, hlu⟩ := hwait
    obtain ⟨v, hv, hrv, hlv⟩ := briClearTc_runs (hru.undisturbed h'.1) 7
    refine ⟨_, rfl, v, ?_, hru.trans hrv, ?_⟩
    · rw [readRest, readBytes, Res.bind_ok, hu, Res.bind_ok, hv]
    · rw [hlv, hlu]
      refine ⟨?_, hst.bri, hst.wf, hst.read⟩
      simp only [Local.setBus, hst.regs, hr.cfg]
      rfl
  rw [heq]
  refine (hrest.prepend hr hl).cast ?_
  simp only [Tally.add, List.append_nil]
  congr 1
  omega

/-- READ of which the `k+1`-st byte never comes. -/
theorem read_drainStops {k : Nat} (h : Answered (needsRead k) s) (hk : k < len.toNat) (hwf : Mem.wf s.host.hbuf = true)
    (hno : NeverMet maskFtTc true (3 + 2 * k) s) :
    (read addr len s).Stops s 2 .busTimeout
      (Tally.add ⟨3 + 2 * k, [txnQread s.cfg (trunc24 addr) len], 0, []⟩ (stuckTally s.cfg))
      (Local.Stored (poppedByte s) k ((readStart addr len s).setBus 0)) := by
  obtain ⟨l, t, hl, hr, hst, heq⟩ := read_prefix (addr := addr) h (fun z => by simp [z] at hk) hk.le hwf
  obtain ⟨m, hm⟩ : ∃ m, len.toNat - k = m + 1 := ⟨len.toNat - k - 1, by omega⟩
  have hwait := callWait_stuck (hr.undisturbed h.1) 4 (hno.past hr hl) 2
  rw [heq, hm, readRest, readBytes]
  rw [hr.cfg] at hwait
  refine ((Res.Stops.bind (Res.Stops.bind hwait)).prepend hr hl).mono fun q hq => ?_
  rw [hq]
  refine ⟨?_, hst.bri, hst.wf, hst.read⟩
  simp only [Local.setBus, hst.regs]

/-- READ that never completes. -/
theorem read_completionStops (h : Answered (needsRead len.toNat) s) (hlen : len ≠ 0) (hwf : Mem.wf s.host.hbuf = true)
    (hno : NeverMet maskTc true (3 + 2 * len.toNat) s) :
    (read addr len s).Stops s 3 .busTimeout
      (Tally.add ⟨3 + 2 * len.toNat, [txnQread s.cfg (trunc24 addr) len], 0, []⟩ (stuckTally s.cfg))
      (Local.Stored (poppedByte s) len.toNat ((readStart addr len s).setBus 0)) := by
  obtain ⟨l, t, hl, hr, hst, heq⟩ := read_prefix (addr := addr) h hlen le_rfl hwf
  have hwait := callWait_stuck (hr.undisturbed h.1) 6 (hno.past hr hl) 3
  rw [heq, Nat.sub_self, readRest, readBytes, Res.bind_ok]
  rw [hr.cfg] at hwait
  refine ((Res.Stops.bind hwait).prepend hr hl).mono fun q hq => ?_
  rw [hq]
  refine ⟨?_, hst.bri, hst.wf, hst.read⟩
  simp only [Local.setBus, hst.regs]

/-- READ whose bus is never idle. -/
theorem read_stuck (hu : Undisturbed s) (hlen : len ≠ 0) (h : NeverMet maskBusy false 0 s) :
    (read addr len s).Stops s 1 .busTimeout (stuckTally s.cfg) (· = s.loc.setBus 0) := by
  rw [read, if_neg hlen]
  exact (callIssue_stuck hu 1 1 _ h).bind

end Read

/-! ### The statements on READ -/

section

variable {s : State} {addr len : Word}

/-- What is stored does not depend on the record READ entered. -/
theorem poppedByte_of_ran {t : State} (hr : Ran [] s t) : poppedByte t = poppedByte s := by
  funext x
  rw [poppedByte, hr.inputByte]
  simp [poppedByte]

theorem readStart_of_ran {t : State} (hr : Ran [] s t) (hl : t.loc = s.loc) : readStart addr len t = readStart addr len s := by
  rw [readStart, hr.cfg, hl]
  rfl

theorem wf_hbuf_of_loc {t : State} (hl : t.loc = s.loc) (hwf : Mem.wf s.host.hbuf = true) : Mem.wf t.host.hbuf = true := by
  have : t.host.hbuf = s.host.hbuf := congrArg Local.hbuf hl
  rwa [this]

theorem Ran.host {l : List BusCall} {t : State} (h : Ran l s t) : t.host = { s.host with hbuf := t.host.hbuf } := by
  have h1 := h.script
  have h2 := h.resetAt
  cases ht : t.host
  rw [ht] at h1 h2
  simp only at h1 h2
  subst h1 h2
  rfl

end

/-- Settles O26: the frame, the byte loop, the completion wait. -/
theorem readCompletes : Obligations.ReadCompletes := by
  intro s addr len h hi hlen hwf
  obtain ⟨t, q, hexec, hq, hend⟩ := run_does (exec_read addr len s) hi fun t hr hl => by
    have hread := read_does (addr := addr) (h.start hr) hlen (wf_hbuf_of_loc hl hwf)
    rw [poppedByte_of_ran hr, readStart_of_ran hr hl, hr.cfg] at hread
    exact hread
  obtain ⟨l, hl, hr⟩ := hend.ran
  refine ⟨t, hexec, ?_, hend.frames, fun k => ?_, hr.cfg, hr.dev, hr.host, ?_, hend.tookSteps⟩
  · rw [hend.seq, hq.regs]
    simp
    rfl
  · rw [hend.hbuf, hq.read k]
    rfl
  · refine hend.lastConfigured ?_
    rw [hq.bri, hq.regs]
    rfl

/-- Settles O27: the byte loop stops after `k` bytes. -/
theorem readDrainTimesOut : Obligations.ReadDrainTimesOut := by
  intro s addr len k h hi hk hwf hno
  have hno' : NeverMet maskFtTc true (3 + 2 * k) s := fun j hj => by
    rw [show 3 + 2 * k + 2 * j = 2 * k + 3 + 2 * j by omega]
    exact hno j hj
  obtain ⟨t, q, hexec, hq, hend, _⟩ := run_stops (exec_read addr len s) hi h.1 fun t hr hl => by
    have hread := read_drainStops (addr := addr) (h.start hr) hk (wf_hbuf_of_loc hl hwf) (hno'.start hr)
    rw [poppedByte_of_ran hr, readStart_of_ran hr hl, hr.cfg] at hread
    exact hread
  obtain ⟨l, hl, hr⟩ := hend.ran
  have hsteps : 3 + 2 * k + 2 * s.cfg.busWaitTicks.toNat + 1 = 2 * k + 3 + 2 * s.cfg.busWaitTicks.toNat + 1 := by omega
  refine ⟨t, hexec, ?_, fun x => ?_, hend.frames, hr.dev, hsteps ▸ hend.tookSteps⟩
  · rw [hend.seq, hq.regs]
    rfl
  · rw [hend.hbuf, hq.read x]
    rfl

/-! ### Stuck bus waits -/

/-- An operation whose first wait is never met. -/
theorem stuck_first {α : Type} {s : State} {i : Instr} {p : Proc} {value : α → DWord} {body : State → Res α}
    (hexec : exec i s = gated s fun s => finish value id (body (enterProc p s))) (hi : s.seq.inited = true)
    (hu : Undisturbed s) (h : ∀ t, Ran [] s t → (body t).Stops t 1 .busTimeout (stuckTally t.cfg) (· = t.loc.setBus 0)) :
    ∃ t, exec i s = .next t ∧ t.seq = failSeq 1 .busTimeout { s.seq with tmoBus := 0 } ∧ newFrames s t = []
      ∧ t.bri = s.bri ∧ sameSurroundings s t ∧ tookSteps (2 * s.cfg.busWaitTicks.toNat + 1) s t := by
  obtain ⟨t, q, hexec, rfl, hend, _⟩ := run_stops (T := stuckTally s.cfg) (P := (· = s.loc.setBus 0)) hexec hi hu
    fun t hr hl => by
      have hstop := h t hr
      rwa [hr.cfg, hl] at hstop
  exact ⟨t, hexec, hend.seq, hend.frames, hend.bri, hend.sameSurroundings rfl, hend.tookSteps⟩

/-- The frame `x` of a command or a status read that never completes. -/
theorem stuck_frame {α : Type} {s : State} {i : Instr} {p : Proc} {value : α → DWord} {body : State → Res α} {x : Txn}
    (hexec : exec i s = gated s fun s => finish value id (body (enterProc p s))) (hi : s.seq.inited = true)
    (hu : Undisturbed s) (h : ∀ t, Ran [] s t → t.loc = s.loc → (body t).Stops t 1 .busTimeout
      (Tally.add ⟨3, [x], 0, []⟩ (stuckTally s.cfg)) (· = s.loc.framed x 0)) :
    ∃ t, exec i s = .next t ∧ t.seq = failSeq 1 .busTimeout { s.seq with txn := x, tmoBus := 0 }
      ∧ newFrames s t = [x] ∧ sameSurroundings s t ∧ lastConfigured s t
      ∧ tookSteps (3 + 2 * s.cfg.busWaitTicks.toNat + 1) s t := by
  obtain ⟨t, q, hexec, rfl, hend, _⟩ := run_stops (T := Tally.add ⟨3, [x], 0, []⟩ (stuckTally s.cfg))
    (P := (· = s.loc.framed x 0)) hexec hi hu h
  exact ⟨t, hexec, hend.seq, hend.frames, hend.sameSurroundings rfl, hend.lastConfigured_fail rfl, hend.tookSteps⟩

section Statement

variable {s : State} (hi : s.seq.inited = true)
include hi

/-- The first wait of each operation. -/
theorem stuck_first_of (hu : Undisturbed s) (h : NeverMet maskBusy false 0 s) {i : Instr}
    (hop : i = .readStatus ∨ (∃ op a, i = .sendCommand op a) ∨ (∃ a n, n ≠ 0 ∧ i = .read a n)
        ∨ i = .writeEnable ∨ i = .resetMemory ∨ (∃ a v, i = .erase a v) ∨ i = .chipErase) :
    ∃ t, exec i s = .next t ∧ t.seq = failSeq 1 .busTimeout { s.seq with tmoBus := 0 } ∧ newFrames s t = []
      ∧ t.bri = s.bri ∧ sameSurroundings s t ∧ tookSteps (2 * s.cfg.busWaitTicks.toNat + 1) s t := by
  have hchip : ∀ t, Ran [] s t → (chipErase t).Stops t 1 .busTimeout (stuckTally t.cfg) (· = t.loc.setBus 0) := fun t hr =>
    eraseToWait_stuck (op := (variantOp · .all)) (a := none) (ms := (variantMs · .all)) (hr.undisturbed hu) (h.start hr)
  rcases hop with rfl | ⟨op, a, rfl⟩ | ⟨a, n, hn, rfl⟩ | rfl | rfl | ⟨a, v, rfl⟩ | rfl
  · exact stuck_first (exec_readStatus s) hi hu fun t hr => readStatus_stuck (hr.undisturbed hu) (h.start hr)
  · exact stuck_first (exec_sendCommand op a s) hi hu fun t hr => sendCommand_stuck (hr.undisturbed hu) _ _ (h.start hr)
  · exact stuck_first (exec_read a n s) hi hu fun t hr => read_stuck (hr.undisturbed hu) hn (h.start hr)
  · exact stuck_first (exec_writeEnable s) hi hu fun t hr => writeEnable_stuck (hr.undisturbed hu) (h.start hr)
  · exact stuck_first (exec_resetMemory s) hi hu fun t hr => resetMemory_stuck (hr.undisturbed hu) (h.start hr)
  · refine stuck_first (exec_erase a v s) hi hu fun t hr => ?_
    by_cases hv : v = .all
    · subst hv
      refine Res.Stops.call fun u hru hlu => ?_
      have hstop := hchip u (by simpa using hr.trans hru)
      rwa [hru.cfg, hlu] at hstop
    · rw [erase_eq a hv]
      exact (eraseToWait_stuck (hr.undisturbed hu) (h.start hr)).bind
  · exact stuck_first (exec_chipErase s) hi hu hchip

/-- The transfer-complete wait of a command and of a status read. -/
theorem stuck_frame_of (h : Answered needsIssue s) (hno : NeverMet maskTc true 3 s) {i : Instr} {x : Txn}
    (hop : i = .readStatus ∧ x = txnRdsr s.cfg ∨ (∃ op, i = .sendCommand op none ∧ x = txnCmd op)
        ∨ (∃ op a, i = .sendCommand op (some a) ∧ x = txnCmda op (a.setWidth 24))) :
    ∃ t, exec i s = .next t ∧ t.seq = failSeq 1 .busTimeout { s.seq with txn := x, tmoBus := 0 }
      ∧ newFrames s t = [x] ∧ sameSurroundings s t ∧ lastConfigured s t
      ∧ tookSteps (3 + 2 * s.cfg.busWaitTicks.toNat + 1) s t := by
  rcases hop with ⟨rfl, rfl⟩ | ⟨op, rfl, rfl⟩ | ⟨op, a, rfl, rfl⟩
  · refine stuck_frame (exec_readStatus s) hi h.1 fun t hr hl => ?_
    have hstop := readStatus_unfinished (h.start hr) (hno.start hr)
    rwa [hr.cfg, hl] at hstop
  · refine stuck_frame (exec_sendCommand op none s) hi h.1 fun t hr hl => ?_
    have hstop := sendCommand_unfinished (h.start hr) op none (hno.start hr)
    rwa [hr.cfg, hl] at hstop
  · refine stuck_frame (exec_sendCommand op (some a) s) hi h.1 fun t hr hl => ?_
    have hstop := sendCommand_unfinished (h.start hr) op (some (trunc24 a)) (hno.start hr)
    rwa [hr.cfg, hl] at hstop

end Statement

/-- Settles O39: each wait uses up its budget. -/
theorem stuckBusIsReported : Obligations.StuckBusIsReported := by
  intro s b hi
  refine ⟨fun i hop hu hno => ?_, fun i x hop h hno => ?_, fun addr len => ?_,
    fun i addr v hiv hw => ⟨fun h hno => ?_, fun h hno => ?_⟩, fun addr v hv hw hn h hno => ?_⟩
  · exact stuck_first_of hi hu (neverMet_busy (by simpa using hno)) hop
  · exact stuck_frame_of hi h (neverMet_tc hno) hop
  · intro n hlen hwf h hno
    obtain ⟨t, q, hexec, hq, hend, _⟩ := run_stops (exec_read addr len s) hi h.1 fun t hr hl => by
      have hread := read_completionStops (addr := addr) (h.start hr) hlen (wf_hbuf_of_loc hl hwf) ((neverMet_tc hno).start hr)
      rw [poppedByte_of_ran hr, readStart_of_ran hr hl, hr.cfg] at hread
      exact hread
    obtain ⟨l, hl, hr⟩ := hend.ran
    refine ⟨t, hexec, ?_, fun k => ?_, hend.frames, hr.dev, hend.tookSteps⟩
    · rw [hend.seq, hq.regs]
      simp
      rfl
    · rw [hend.hbuf, hq.read k]
      rfl
  · obtain ⟨t, q, hexec, hq, hend, _⟩ := eraseAny_stops (P := (·.hbuf = s.loc.hbuf)) hiv hi h.1 fun op a ms t hr hl hx _ => by
      have herase := eraseToWait_unsent (op := op) (a := a) (ms := ms) (by rwa [hr.cfg]) (h.start hr) ((neverMet_busy hno).start hr)
      rwa [hr.cfg, hl] at herase
    exact ⟨t, hexec, by rw [hend.seq]; rfl, by rw [hend.seq]; rfl, by rw [hend.seq]; rfl, by rw [hend.seq]; rfl,
      hend.frames, hend.sameSurroundings hq, hend.tookSteps⟩
  · obtain ⟨t, q, hexec, hq, hend, _⟩ := eraseAny_stops (P := (·.hbuf = s.loc.hbuf)) hiv hi h.1 fun op a ms t hr hl hx _ => by
      have herase := eraseToWait_unfinished (ms := ms) hx (by rwa [hr.cfg]) (h.start hr) ((neverMet_tc hno).start hr)
      rwa [hr.cfg, hl] at herase
    have hsteps : 11 + (3 + 2 * b) + 1 = 14 + 2 * b + 1 := by omega
    exact ⟨t, hexec, by rw [hend.seq]; rfl, by rw [hend.seq]; rfl, by rw [hend.seq]; rfl, by rw [hend.seq]; rfl,
      hend.frames, hend.sameSurroundings hq, hsteps ▸ hend.tookSteps⟩
  · obtain ⟨t, q, hexec, rfl, hend, _⟩ := run_stops (exec_erase addr v s) hi h.1 fun t hr hl => by
      have herase := erase_unclosed (addr := addr) hv (by rwa [hr.cfg]) (by rwa [hr.cfg]) (h.start hr)
        ((neverMet_busy hno).start hr)
      have hbyte : inputByte t 21 = inputByte s 21 := hr.inputByte 21
      rw [hr.cfg, hl, hbyte] at herase
      exact herase
    exact ⟨t, hexec, hend.seq, hend.frames, hend.sameSurroundings rfl, hend.lastConfigured_fail rfl, hend.tookSteps⟩

end Sys2Proof.Machine
end

section
/-! One chunk of WRITE under ENV-ANY: sent whole, or stopped at one of its five stages (rules R151, R273). -/

namespace Sys2Proof.Machine

/-! ### The byte loop of a chunk -/

/-- The bytes of the buffer from an offset on. -/
def bufferBytes (m : Mem) (off k : Nat) : List Byte := (List.range' off k).map (memRead m)

theorem bufferBytes_append (m : Mem) (off j k : Nat) :
    bufferBytes m off j ++ bufferBytes m (off + j) k = bufferBytes m off (j + k) := by
  rw [bufferBytes, bufferBytes, ← List.map_append, List.range'_append_1, bufferBytes]

theorem bufferBytes_zero (m : Mem) (k : Nat) : bufferBytes m 0 k = (List.range k).map fun x => memRead m x := by
  rw [bufferBytes, List.range_eq_range']

section WriteBytes

variable {s : State} {q0 : Local} {d : Nat}

/-- A turn of the byte loop: FIFO space, a byte. -/
theorem writeBytes_turn {i : Nat} (hloc : s.loc = q0.setIdx (BitVec.ofNat 32 i))
    (hbus : q0.regs.tmoBus = s.cfg.busWaitTicks) (hoff : q0.regs.bufOff = BitVec.ofNat 32 d) (hi : d + i < 2 ^ 32)
    (h : Answered [.room, .any] s) :
    ∃ l t, tally l = ⟨2, [], 0, bufferBytes q0.hbuf (d + i) 1⟩ ∧ Ran l s t ∧ t.loc = q0.setIdx (BitVec.ofNat 32 (i + 1))
      ∧ ∀ m, writeBytes (m + 1) s = writeBytes m t := by
  obtain ⟨t, ht, hr, hl⟩ := (callWait_runs h room_met 3).orTimeout 3
  have htl : t.loc = q0.setIdx (BitVec.ofNat 32 i) := by
    rw [hl, hloc, ← hbus]
    rfl
  have hread : hbufRead t (t.seq.bufOff + t.seq.idx) = memRead q0.hbuf (d + i) := by
    have h1 : t.seq.bufOff = q0.regs.bufOff := congrArg (fun q : Local => q.regs.bufOff) htl
    have h2 : t.seq.idx = BitVec.ofNat 32 i := congrArg (fun q : Local => q.regs.idx) htl
    have h3 : t.host.hbuf = q0.hbuf := congrArg Local.hbuf htl
    rw [hbufRead, h1, h2, h3, hoff, ← BitVec.ofNat_add, BitVec.toNat_ofNat, Nat.mod_eq_of_lt hi]
  obtain ⟨u, hu, hru, hlu⟩ := briWriteByte_runs (hr.undisturbed h.1) 4 (memRead q0.hbuf (d + i))
  have hset : Ran [] u (setIdx (u.seq.idx + 1) u) := .of_env_eq rfl rfl rfl rfl rfl
  refine ⟨_, _, ?_, (hr.trans hru).trans hset, ?_, fun m => ?_⟩
  · simp [tally, framesOf, tickCount, bytesWritten, bufferBytes]
  · change u.loc.setIdx (u.loc.regs.idx + 1) = _
    rw [hlu, htl, BitVec.ofNat_add]
    rfl
  · rw [writeBytes, ht, Res.bind_ok, writeOneByte, hread, hu]
    rfl

/-- `k` turns of the byte loop. -/
theorem writeBytes_turns {k : Nat} : ∀ {i : Nat} {s : State}, s.loc = q0.setIdx (BitVec.ofNat 32 i) →
    q0.regs.tmoBus = s.cfg.busWaitTicks → q0.regs.bufOff = BitVec.ofNat 32 d → d + i + k < 2 ^ 32 →
    Undisturbed s ∧ s.cfg.busWaitTicks ≠ 0 ∧ answers s 0 (rounds k [.room, .any]) = true →
    ∃ l t, tally l = ⟨2 * k, [], 0, bufferBytes q0.hbuf (d + i) k⟩ ∧ Ran l s t
      ∧ t.loc = q0.setIdx (BitVec.ofNat 32 (i + k)) ∧ ∀ m, writeBytes (k + m) s = writeBytes m t := by
  induction k with
  | zero =>
    intro i s hloc _ _ _ _
    exact ⟨[], s, rfl, .refl s, hloc, fun m => by rw [Nat.zero_add]⟩
  | succ k ih =>
    intro i s hloc hbus hoff hi h
    have h : Answered ([.room, .any] ++ rounds k [.room, .any]) s := Answered.cast h (rounds_succ k _)
    obtain ⟨l, t, hl, hr, hloc', hloop⟩ := writeBytes_turn hloc hbus hoff (by omega) h.left
    obtain ⟨m, u, hm, hru, hlocu, hloop'⟩ := ih hloc' (by rw [hr.cfg]; exact hbus) hoff (by omega) (h.past hr hl rfl)
    refine ⟨l ++ m, u, ?_, hr.trans hru, by rwa [Nat.add_assoc, Nat.add_comm 1] at hlocu, fun n => ?_⟩
    · rw [tally_append, hl, hm, ← Nat.add_assoc, Nat.add_comm k, ← bufferBytes_append]
      simp [Tally.add, Nat.mul_succ, Nat.add_comm]
    · rw [← hloop', ← hloop]
      congr 1
      omega

end WriteBytes

/-! ### A chunk up to its bytes -/

/-- The rest of a chunk: the bytes left, the completion wait, the device wait. -/
def chunkRest (n : Nat) (s : State) : Res Unit :=
  (writeBytes n s).bind fun _ s =>
  ((callWait 5 maskTc true s).orTimeout 4).bind fun _ s =>
  (briClearTc 6 s).bind fun _ s => callWaitNotBusy 7 5 s.cfg.programWaitTicks s

/-- The loop registers are those the chunk started with, and so is the buffer. -/
structure Local.SameChunk (q q' : Local) : Prop where
  range : SameRange q.regs q'.regs
  hbuf : q'.hbuf = q.hbuf

theorem Local.SameChunk.trans {q q' q'' : Local} (h : Local.SameChunk q q') (k : Local.SameChunk q' q'') :
    Local.SameChunk q q'' := ⟨SameRange.keeps.trans _ _ _ h.range k.range, k.hbuf.trans h.hbuf⟩

theorem Local.Polling.sameChunk {d : Word} {q q' : Local} (h : Local.Polling d q q') : Local.SameChunk q q' := by
  obtain ⟨⟨x, b, v, hregs⟩, hbuf⟩ := h
  refine ⟨?_, hbuf⟩
  rw [hregs]
  exact SameRange.keeps.leaf _ _ _ _ _ _

/-- A chunk of `m` bytes from offset `d` of the buffer, of which the program frame is `x`. -/
structure ChunkOf (m d : Nat) (x : Txn) (s : State) : Prop where
  size : s.seq.curSize.toNat = m
  off : s.seq.bufOff = BitVec.ofNat 32 d
  fits : d + m < 2 ^ 32
  frame : txnQpp s.cfg (trunc24 s.seq.curAddr) s.seq.curSize = x

/-- The local parts of a chunk that has given `k` bytes. -/
def filledAfter (x : Txn) (k : Nat) (s : State) : Local :=
  (((s.loc.polled s.cfg (inputByte s 10)).setDev s.cfg.welRetry).framed x s.cfg.busWaitTicks).setIdx (BitVec.ofNat 32 k)

section Chunk

variable {s : State} {m d : Nat} {x : Txn}

theorem filledAfter_sameChunk (x : Txn) (k : Nat) (s : State) : Local.SameChunk s.loc (filledAfter x k s) :=
  ⟨⟨rfl, rfl, rfl, rfl, rfl, rfl, rfl⟩, rfl⟩

/-- Write enable, and then ISSUE of the program frame. -/
theorem sendChunk_enabled (hat : ChunkOf m d x s) (hw : s.cfg.welRetry ≠ 0) (h : Answered needsEnable s) :
    ∃ l t, tally l = ⟨11, [txnCmd s.cfg.opWriteEnable, txnRdsr s.cfg], 0, []⟩ ∧ Ran l s t
      ∧ t.loc = (s.loc.polled s.cfg (inputByte s 10)).setDev s.cfg.welRetry
      ∧ sendChunk s = (callIssue 2 2 x t).bind fun _ s => chunkRest s.seq.curSize.toNat (setIdx 0 s) := by
  obtain ⟨l, hl, t, ht, hr, hloc⟩ := callWriteEnable_does h hw
  have h1 : t.seq.curAddr = s.seq.curAddr := congrArg (fun q : Local => q.regs.curAddr) hloc
  have h2 : t.seq.curSize = s.seq.curSize := congrArg (fun q : Local => q.regs.curSize) hloc
  refine ⟨l, t, hl, hr, hloc, ?_⟩
  rw [sendChunk, ht, Res.bind_ok, h1, h2, hr.cfg, hat.frame]
  rfl

/-- A chunk up to its first `k` bytes. -/
theorem sendChunk_filled {k : Nat} (hat : ChunkOf m d x s) (hk : k ≤ m) (hw : s.cfg.welRetry ≠ 0)
    (h : Answered (needsFill k) s) :
    ∃ l t, tally l = ⟨14 + 2 * k, [txnCmd s.cfg.opWriteEnable, txnRdsr s.cfg, x], 0, bufferBytes s.host.hbuf d k⟩
      ∧ Ran l s t ∧ t.loc = filledAfter x k s ∧ sendChunk s = chunkRest (m - k) t := by
  have h' : Answered (needsEnable ++ (needsIssue ++ rounds k [.room, .any])) s := h.cast (List.append_assoc _ _ _)
  obtain ⟨l, t, hl, hr, hloc, heq⟩ := sendChunk_enabled hat hw h'.left
  have h'' := h'.past hr hl rfl
  obtain ⟨u, hu, hru, hlu⟩ := callIssue_runs h''.left 2 2 x
  have hset : Ran [] u (setIdx 0 u) := .of_env_eq rfl rfl rfl rfl rfl
  have hrs := hru.trans hset
  have hloc0 : (setIdx 0 u).loc = filledAfter x 0 s := by
    change u.loc.setIdx 0 = _
    rw [hlu, hloc, hr.cfg]
    rfl
  obtain ⟨n, v, hn, hrv, hlv, hloop⟩ := writeBytes_turns (k := k) (i := 0) (d := d) (q0 := filledAfter x 0 s) hloc0
    (by rw [hrs.cfg, hr.cfg]; rfl) hat.off (by have := hat.fits; omega) (h''.after hrs rfl)
  have hran := (hr.trans hrs).trans hrv
  have hsize : u.seq.curSize.toNat = m := by
    have : u.seq.curSize = s.seq.curSize := by
      have := congrArg (fun q : Local => q.regs.curSize) hloc0
      exact this
    rw [this, hat.size]
  refine ⟨_, v, ?_, hran, ?_, ?_⟩
  · rw [tally_append, tally_append, hl, hn]
    simp only [Tally.add, tally, framesOf, tickCount, bytesWritten]
    simp
    rfl
  · rw [hlv, Nat.zero_add]
    rfl
  · rw [heq, hu, Res.bind_ok, hsize, chunkRest, chunkRest, ← hloop, Nat.add_sub_cancel' hk]

/-! ### The five stages -/

/-- Stage 1: the latch never appears. -/
theorem sendChunk_unlatched (h : Answered (needsSend ++ needsNoLatch s.cfg.welRetry.toNat) s) :
    (sendChunk s).Stops s 1 .writeEnableFailed
      (Tally.add ⟨5, [txnCmd s.cfg.opWriteEnable], 0, []⟩ (turnsTally s.cfg s.cfg.welRetry.toNat)) (Local.SameChunk s.loc) :=
  (callWriteEnable_stops h).bind.mono fun _ hq => hq.sameChunk

/-- Stage 2: the bus is never idle before the program frame. -/
theorem sendChunk_unsent (hat : ChunkOf m d x s) (hw : s.cfg.welRetry ≠ 0) (h : Answered needsEnable s)
    (hno : NeverMet maskBusy false 11 s) :
    (sendChunk s).Stops s 2 .busTimeout
      (Tally.add ⟨11, [txnCmd s.cfg.opWriteEnable, txnRdsr s.cfg], 0, []⟩ (stuckTally s.cfg)) (Local.SameChunk s.loc) := by
  obtain ⟨l, t, hl, hr, hloc, heq⟩ := sendChunk_enabled hat hw h
  have hissue := callIssue_stuck (hr.undisturbed h.1) 2 2 x (hno.past hr hl)
  rw [heq]
  rw [hr.cfg] at hissue
  refine ((Res.Stops.bind hissue).prepend hr hl).mono fun q hq => ?_
  rw [hq, hloc]
  exact ⟨⟨rfl, rfl, rfl, rfl, rfl, rfl, rfl⟩, rfl⟩

/-- What a chunk that stopped after `k` bytes leaves. -/
structure Local.StoppedAt (k : Nat) (q q' : Local) : Prop where
  same : Local.SameChunk q q'
  idx : q'.regs.idx = BitVec.ofNat 32 k

/-- Stage 3: FIFO space never comes after `k` bytes. -/
theorem sendChunk_unfilled {k : Nat} (hat : ChunkOf m d x s) (hk : k < m) (hw : s.cfg.welRetry ≠ 0)
    (h : Answered (needsFill k) s) (hno : NeverMet maskFt true (14 + 2 * k) s) :
    (sendChunk s).Stops s 3 .busTimeout
      (Tally.add ⟨14 + 2 * k, [txnCmd s.cfg.opWriteEnable, txnRdsr s.cfg, x], 0, bufferBytes s.host.hbuf d k⟩
        (stuckTally s.cfg)) (Local.StoppedAt k s.loc) := by
  obtain ⟨l, t, hl, hr, hloc, heq⟩ := sendChunk_filled hat hk.le hw h
  obtain ⟨n, hn⟩ : ∃ n, m - k = n + 1 := ⟨m - k - 1, by omega⟩
  have hwait := callWait_stuck (hr.undisturbed h.1) 3 (hno.past hr hl) 3
  rw [heq, hn, chunkRest, writeBytes]
  rw [hr.cfg] at hwait
  refine ((Res.Stops.bind (Res.Stops.bind hwait)).prepend hr hl).mono fun q hq => ?_
  rw [hq, hloc]
  exact ⟨(filledAfter_sameChunk x k s).trans ⟨⟨rfl, rfl, rfl, rfl, rfl, rfl, rfl⟩, rfl⟩, rfl⟩

/-- Stage 4: transfer-complete never comes. -/
theorem sendChunk_unfinished (hat : ChunkOf m d x s) (hw : s.cfg.welRetry ≠ 0) (h : Answered (needsFill m) s)
    (hno : NeverMet maskTc true (14 + 2 * m) s) :
    (sendChunk s).Stops s 4 .busTimeout
      (Tally.add ⟨14 + 2 * m, [txnCmd s.cfg.opWriteEnable, txnRdsr s.cfg, x], 0, bufferBytes s.host.hbuf d m⟩
        (stuckTally s.cfg)) (Local.StoppedAt m s.loc) := by
  obtain ⟨l, t, hl, hr, hloc, heq⟩ := sendChunk_filled hat le_rfl hw h
  have hwait := callWait_stuck (hr.undisturbed h.1) 5 (hno.past hr hl) 4
  rw [heq, Nat.sub_self, chunkRest, writeBytes, Res.bind_ok]
  rw [hr.cfg] at hwait
  refine ((Res.Stops.bind hwait).prepend hr hl).mono fun q hq => ?_
  rw [hq, hloc]
  exact ⟨(filledAfter_sameChunk x m s).trans ⟨⟨rfl, rfl, rfl, rfl, rfl, rfl, rfl⟩, rfl⟩, rfl⟩

/-- A chunk up to its device wait. -/
theorem sendChunk_written (hat : ChunkOf m d x s) (hw : s.cfg.welRetry ≠ 0)
    (h : Answered (needsFill m ++ [.complete, .any]) s) :
    ∃ l t, tally l = ⟨16 + 2 * m, [txnCmd s.cfg.opWriteEnable, txnRdsr s.cfg, x], 0, bufferBytes s.host.hbuf d m⟩
      ∧ Ran l s t ∧ t.loc = filledAfter x m s ∧ sendChunk s = callWaitNotBusy 7 5 s.cfg.programWaitTicks t := by
  obtain ⟨l, t, hl, hr, hloc, heq⟩ := sendChunk_filled hat le_rfl hw h.left
  have h' := h.past hr hl (by simp; omega)
  obtain ⟨u, hu, hru, hlu⟩ := (callWait_runs h' complete_met 5).orTimeout 4
  obtain ⟨v, hv, hrv, hlv⟩ := briClearTc_runs (hru.undisturbed h'.1) 6
  have hran := hr.trans (hru.trans hrv)
  refine ⟨_, v, ?_, hran, ?_, ?_⟩
  · rw [tally_append, hl]
    simp only [Tally.add, tally, framesOf, tickCount, bytesWritten]
    simp
    omega
  · rw [hlv, hlu, hloc, hr.cfg]
    rfl
  · rw [heq, Nat.sub_self, chunkRest, writeBytes, Res.bind_ok, hu, Res.bind_ok, hv, Res.bind_ok, hran.cfg]

/-- Stage 5: the device stays busy. -/
theorem sendChunk_stops (hat : ChunkOf m d x s) (hw : s.cfg.welRetry ≠ 0)
    (h : Answered (needsFill m ++ [.complete, .any] ++ needsBusy s.cfg.programWaitTicks.toNat) s) :
    (sendChunk s).Stops s 5 .deviceTimeout
      (Tally.add ⟨16 + 2 * m, [txnCmd s.cfg.opWriteEnable, txnRdsr s.cfg, x], 0, bufferBytes s.host.hbuf d m⟩
        (turnsTally s.cfg s.cfg.programWaitTicks.toNat)) (Local.StoppedAt m s.loc) := by
  obtain ⟨l, t, hl, hr, hloc, heq⟩ := sendChunk_written hat hw h.left
  have hwait := callWaitNotBusy_stops 7 5 (h.past hr hl (by simp; omega))
  rw [heq]
  rw [hr.cfg] at hwait
  refine (hwait.prepend hr hl).mono fun q hq => ⟨?_, ?_⟩
  · exact (filledAfter_sameChunk x m s).trans (hloc ▸ hq.sameChunk)
  · obtain ⟨y, b, v, hregs⟩ := hq.regs
    rw [hregs, hloc]
    rfl

/-- The local parts after a chunk. -/
def chunkAfter (m : Nat) (s : State) : Local :=
  ((s.loc.polled s.cfg (inputByte s (21 + 2 * m))).setDev s.cfg.programWaitTicks).setIdx (BitVec.ofNat 32 m)

/-- A chunk whose waits end at once. -/
theorem sendChunk_does (hat : ChunkOf m d x s) (hw : s.cfg.welRetry ≠ 0) (hn : s.cfg.programWaitTicks ≠ 0)
    (h : Answered (needsChunk m) s) :
    (sendChunk s).Does s () ⟨22 + 2 * m, [txnCmd s.cfg.opWriteEnable, txnRdsr s.cfg, x, txnRdsr s.cfg], 0,
      bufferBytes s.host.hbuf d m⟩ (· = chunkAfter m s) := by
  have h' : Answered ((needsFill m ++ [.complete, .any]) ++ needsStatus .deviceIdle) s := h
  obtain ⟨l, t, hl, hr, hloc, heq⟩ := sendChunk_written hat hw h'.left
  have hwait := callWaitNotBusy_does (h'.past hr hl (by simp; omega)) 7 5 hn
  have hbyte : inputByte t 5 = inputByte s (21 + 2 * m) := by
    rw [hr.byteAfter hl]
    congr 1
    simp only
    omega
  rw [hbyte, hloc, hr.cfg, ← heq] at hwait
  refine (hwait.prepend hr hl).cast ?_
  simp [Tally.add]
  omega

end Chunk

end Sys2Proof.Machine
end

section
/-! WRITE and ABI_PROGRAM under ENV-ANY: the chunks sent before a chunk, a failure in any chunk, the whole write (rules R151,
R152, R183). -/

namespace Sys2Proof.Machine

/-! ### The chunks before a chunk -/

/-- Only what a chunk writes has changed: the loop registers, `IDX`, `TXN`, the two wait counters, the status snapshot and the
controller's transaction. -/
structure Local.Chunked (q q' : Local) : Prop where
  regs : q'.regs = { q.regs with
    curAddr := q'.regs.curAddr, curSize := q'.regs.curSize, endAddr := q'.regs.endAddr, bufOff := q'.regs.bufOff
    idx := q'.regs.idx, txn := q'.regs.txn, tmoBus := q'.regs.tmoBus, tmoDev := q'.regs.tmoDev, srSnap := q'.regs.srSnap }
  hbuf : q'.hbuf = q.hbuf
  bri : q'.bri = { q.bri with cfg := q'.bri.cfg }

theorem Local.Chunked.refl (q : Local) : Local.Chunked q q := ⟨rfl, rfl, rfl⟩

theorem Local.Chunked.trans {q q' q'' : Local} (h : Local.Chunked q q') (k : Local.Chunked q' q'') : Local.Chunked q q'' where
  regs := by
    have h' := k.regs
    rw [h.regs] at h'
    exact h'
  hbuf := k.hbuf.trans h.hbuf
  bri := by
    have h' := k.bri
    rw [h.bri] at h'
    exact h'

theorem chunkAfter_chunked (m : Nat) (s : State) : Local.Chunked s.loc (chunkAfter m s) := ⟨rfl, rfl, rfl⟩

theorem nextChunkRegs_chunked (s : State) : Local.Chunked s.loc (nextChunkRegs s).loc := ⟨rfl, rfl, rfl⟩

theorem chunkAfter_range (m : Nat) (s : State) : SameRange s.seq (chunkAfter m s).regs := ⟨rfl, rfl, rfl, rfl, rfl, rfl, rfl⟩

theorem ChunkAt.of_loc {c : Cfg} {a n j : Nat} {s : State} (h : ChunkAt c a n j s.loc.regs) : ChunkAt c a n j s.seq :=
  ⟨h.curAddr, h.curSize, h.endAddr, h.bufOff⟩

theorem trunc24_ofNat (x : Nat) : trunc24 (BitVec.ofNat 32 x) = BitVec.ofNat 24 x := by
  apply BitVec.eq_of_toNat_eq
  simp [trunc24]

/-- The registers of chunk `j` are those of a chunk of its size, with its frame. -/
theorem ChunkAt.chunkOf {s : State} {a n j : Nat} (h : ChunkAt s.cfg a n j s.seq) (hp : 0 < s.cfg.pageSize) (hn : 0 < n)
    (hn' : n < 2 ^ 32) (hj : j < chunkCount s.cfg.pageSize a n) :
    ChunkOf (chunkSize s.cfg.pageSize a n j) (chunkStart s.cfg.pageSize a j - a) (chunkTxn s.cfg a n j) s where
  size := h.curSize_toNat hp hn'
  off := h.bufOff
  fits := by
    have h1 := chunkStart_add_chunkSize hp hn hj
    have h2 := chunkEnd_le s.cfg.pageSize a n j
    have h3 := le_chunkStart hp a j
    omega
  frame := by rw [h.curAddr, h.curSize, trunc24_ofNat]; rfl

/-- The calls of the first `i` chunks. -/
def sentTally (c : Cfg) (a n : Nat) (hbuf : Mem) (i : Nat) : Tally :=
  ⟨22 * i + 2 * (chunkStart c.pageSize a i - a), chunkFrames c a n i, 0, bufferBytes hbuf 0 (chunkStart c.pageSize a i - a)⟩

/-- The calls of a chunk. -/
def chunkTally (c : Cfg) (a n : Nat) (hbuf : Mem) (i : Nat) : Tally :=
  ⟨22 + 2 * chunkSize c.pageSize a n i, [txnCmd c.opWriteEnable, txnRdsr c, chunkTxn c a n i, txnRdsr c], 0,
    bufferBytes hbuf (chunkStart c.pageSize a i - a) (chunkSize c.pageSize a n i)⟩

/-- The first chunks and one more. -/
theorem sentTally_add_chunk {c : Cfg} {a n i e : Nat} (hbuf : Mem)
    (he : chunkStart c.pageSize a i - a + chunkSize c.pageSize a n i = e) :
    (sentTally c a n hbuf i).add (chunkTally c a n hbuf i)
      = ⟨22 * (i + 1) + 2 * e, chunkFrames c a n (i + 1), 0, bufferBytes hbuf 0 e⟩ := by
  have hbytes := bufferBytes_append hbuf 0 (chunkStart c.pageSize a i - a) (chunkSize c.pageSize a n i)
  rw [Nat.zero_add] at hbytes
  simp only [Tally.add, sentTally, chunkTally, chunkFrames_succ, hbytes, he]
  congr 1
  omega

/-- The next chunk starts where this one ends. -/
theorem chunkOffset_succ {p a n i : Nat} (hp : 0 < p) (hn : 0 < n) (hi : i + 1 < chunkCount p a n) :
    chunkStart p a i - a + chunkSize p a n i = chunkStart p a (i + 1) - a := by
  have h1 := chunkStart_add_chunkSize hp hn (show i < chunkCount p a n by omega)
  have h2 := chunkEnd_eq_chunkStart_succ hn hi
  have h3 := le_chunkStart hp a i
  omega

/-- The last chunk ends with the range. -/
theorem chunkOffset_last {p a n i : Nat} (hp : 0 < p) (hn : 0 < n) (hi : i + 1 = chunkCount p a n) :
    chunkStart p a i - a + chunkSize p a n i = n := by
  have h1 := chunkStart_add_chunkSize hp hn (show i < chunkCount p a n by omega)
  have h2 := chunkEnd_last hp hn hi
  have h3 := le_chunkStart hp a i
  omega

theorem needsChunks_length {c : Cfg} {a n : Nat} (hp : 0 < c.pageSize) (hn : 0 < n) : ∀ {i : Nat},
    i < chunkCount c.pageSize a n → (needsChunks c a n i).length = 22 * i + 2 * (chunkStart c.pageSize a i - a)
  | 0, _ => by simp [needsChunks, chunkStart_zero]
  | i + 1, hi => by
    rw [needsChunks_succ, List.length_append, needsChunks_length hp hn (by omega), needsChunk_length,
      ← chunkOffset_succ hp hn hi]
    omega

section Loop

variable {a n i : Nat} {s : State} (hp : 0 < s.cfg.pageSize) (hn : 0 < n) (hn' : a + n < 2 ^ 32)
include hp hn hn'

/-- One chunk sent whole. -/
theorem writeChunk_sent (hat : ChunkAt s.cfg a n i s.seq) (hi : i < chunkCount s.cfg.pageSize a n) (hw : s.cfg.welRetry ≠ 0)
    (hpw : s.cfg.programWaitTicks ≠ 0) (h : Answered (needsChunk (chunkSize s.cfg.pageSize a n i)) s) :
    ∃ l u, tally l = chunkTally s.cfg a n s.host.hbuf i ∧ Ran l s u
      ∧ u.loc = chunkAfter (chunkSize s.cfg.pageSize a n i) s ∧ ChunkAt u.cfg a n i u.seq
      ∧ ∀ k, writeChunks (k + 1) s = if i + 1 < chunkCount s.cfg.pageSize a n then writeChunks k (nextChunkRegs u)
          else .ok () (nextChunkRegs u) := by
  obtain ⟨l, hl, u, hu, hr, hloc⟩ := sendChunk_does (hat.chunkOf hp hn (by omega) hi) hw hpw h
  have hat' : ChunkAt s.cfg a n i u.seq := by
    refine ChunkAt.of_loc ?_
    rw [hloc]
    exact hat.of_sameRange (chunkAfter_range _ s)
  refine ⟨l, u, hl, hr, hloc, hr.cfg ▸ hat', fun k => ?_⟩
  rw [writeChunks, writeChunk_eq, hu, Res.bind_ok, Res.bind_ok]
  simp only [nextChunkRegs_lt_iff hat' hp hn hn' hi]

/-- The first `i` chunks sent whole. -/
theorem writeChunks_sent (hat : ChunkAt s.cfg a n 0 s.seq) : ∀ {i : Nat}, i < chunkCount s.cfg.pageSize a n →
    (0 < i → s.cfg.welRetry ≠ 0 ∧ s.cfg.programWaitTicks ≠ 0) → Answered (needsChunks s.cfg a n i) s →
    ∃ l t, tally l = sentTally s.cfg a n s.host.hbuf i ∧ Ran l s t ∧ ChunkAt t.cfg a n i t.seq ∧ Local.Chunked s.loc t.loc
      ∧ ∀ k, writeChunks (i + k) s = writeChunks k t
  | 0, _, _, _ => ⟨[], s, by simp [sentTally, chunkStart_zero, chunkFrames, bufferBytes]; rfl, .refl s, hat, .refl _,
      fun k => by rw [Nat.zero_add]⟩
  | i + 1, hi, hpos, h => by
    obtain ⟨hw, hpw⟩ := hpos (Nat.succ_pos i)
    have h : Answered (needsChunks s.cfg a n i ++ needsChunk (chunkSize s.cfg.pageSize a n i)) s :=
      h.cast (needsChunks_succ _ _ _ _)
    obtain ⟨l, t, hl, hr, hat', hkept, hloop⟩ := writeChunks_sent hat (i := i) (by omega) (fun _ => ⟨hw, hpw⟩) h.left
    have hcfg := hr.cfg
    have hbuf : t.host.hbuf = s.host.hbuf := hkept.hbuf
    have hlen : (sentTally s.cfg a n s.host.hbuf i).steps = (needsChunks s.cfg a n i).length :=
      (needsChunks_length hp hn (by omega)).symm
    obtain ⟨m, u, hm, hru, hlocu, hatu, hloopu⟩ := writeChunk_sent (s := t) (by rwa [hcfg]) hn hn' hat' (by rw [hcfg]; omega)
      (by rwa [hcfg]) (by rwa [hcfg]) (by rw [hcfg]; exact h.past hr hl hlen)
    have hset : Ran [] u (nextChunkRegs u) := .of_env_eq rfl rfl rfl rfl rfl
    have hran := (hr.trans hru).trans hset
    rw [List.append_nil] at hran
    have hend : chunkStart s.cfg.pageSize a i - a + chunkSize s.cfg.pageSize a n i = chunkStart s.cfg.pageSize a (i + 1) - a :=
      chunkOffset_succ hp hn hi
    refine ⟨l ++ m, nextChunkRegs u, ?_, hran, ?_, ?_, fun k => ?_⟩
    · rw [tally_append, hl, hm, hcfg, hbuf, sentTally_add_chunk _ hend]
      rfl
    · exact chunkAt_succ (c := u.cfg) rfl hatu (by rwa [hru.cfg, hcfg]) hn (by omega) (by rwa [hru.cfg, hcfg])
    · exact hkept.trans (Local.Chunked.trans (hlocu ▸ chunkAfter_chunked _ t) (nextChunkRegs_chunked u))
    · rw [show i + 1 + k = i + (k + 1) by omega, hloop, hloopu, if_pos (by rwa [hcfg])]

/-- A chunk that fails stops the loop. -/
theorem writeChunks_stops (hat : ChunkAt s.cfg a n 0 s.seq) (hi : i < chunkCount s.cfg.pageSize a n)
    (hpos : 0 < i → s.cfg.welRetry ≠ 0 ∧ s.cfg.programWaitTicks ≠ 0) (h : Answered (needsChunks s.cfg a n i) s)
    {code : Byte} {cause : Cause} {T : Tally} {P : Local → Local → Prop}
    (hstop : ∀ l t, tally l = sentTally s.cfg a n s.host.hbuf i → l.length = (needsChunks s.cfg a n i).length → Ran l s t →
      t.host.hbuf = s.host.hbuf → ChunkOf (chunkSize s.cfg.pageSize a n i) (chunkStart s.cfg.pageSize a i - a) (chunkTxn s.cfg a n i) t →
      (sendChunk t).Stops t code cause T (P t.loc)) (k : Nat) :
    (writeChunks (i + (k + 1)) s).Stops s code cause ((sentTally s.cfg a n s.host.hbuf i).add T)
      (fun q' => ∃ q, Local.Chunked s.loc q ∧ ChunkAt s.cfg a n i q.regs ∧ P q q') := by
  obtain ⟨l, t, hl, hr, hat', hkept, hloop⟩ := writeChunks_sent hp hn hn' hat hi hpos h
  have hcfg := hr.cfg
  have hlen := (length_eq_steps hl).trans (needsChunks_length hp hn hi).symm
  have hchunk := hat'.chunkOf (by rwa [hcfg]) hn (by omega) (by rwa [hcfg])
  rw [hcfg] at hchunk
  have hsend := hstop l t hl hlen hr hkept.hbuf hchunk
  rw [hloop, writeChunks, writeChunk_eq]
  refine ((Res.Stops.bind (Res.Stops.bind hsend)).prepend hr hl).mono fun q' hq => ⟨t.loc, hkept, ?_, hq⟩
  rw [hcfg] at hat'
  exact ⟨hat'.curAddr, hat'.curSize, hat'.endAddr, hat'.bufOff⟩

end Loop

/-! ### WRITE whose waits end at once -/

/-- The loop registers WRITE starts with. -/
def writeEntry (addr len : Word) (s : State) : State := setProgramLoop addr (firstChunk s.cfg addr len) (addr + len) 0 s

theorem write_eq {addr len : Word} (hlen : len ≠ 0) (s : State) : write addr len s = writeChunks len.toNat (writeEntry addr len s) :=
  if_neg hlen

theorem Ran.writeEntry (addr len : Word) (s : State) : Ran [] s (writeEntry addr len s) := .of_env_eq rfl rfl rfl rfl rfl

theorem writeEntry_chunked (addr len : Word) (s : State) : Local.Chunked s.loc (writeEntry addr len s).loc := ⟨rfl, rfl, rfl⟩

theorem toNat_pos_of_ne_zero {x : Word} (h : x ≠ 0) : 0 < x.toNat := Nat.pos_of_ne_zero fun z => h (BitVec.eq_of_toNat_eq z)

/-- The local parts after a whole write. -/
def writtenAfter (addr len : Word) (s : State) : Local :=
  { regs := { s.loc.regs with
      curAddr := addr + len, curSize := 0, endAddr := addr + len, bufOff := len
      idx := BitVec.ofNat 32 (chunkSize s.cfg.pageSize addr.toNat len.toNat
        (chunkCount s.cfg.pageSize addr.toNat len.toNat - 1))
      txn := txnRdsr s.cfg, tmoBus := s.cfg.busWaitTicks, tmoDev := s.cfg.programWaitTicks
      srSnap := inputByte s (2 * len.toNat + 22 * chunkCount s.cfg.pageSize addr.toNat len.toNat - 1) }
    hbuf := s.host.hbuf
    bri := { s.bri with cfg := txnRdsr s.cfg } }

theorem Local.eq_of {q q' : Local} (hr : q.regs = q'.regs) (hh : q.hbuf = q'.hbuf) (hb : q.bri = q'.bri) : q = q' := by
  cases q
  cases q'
  simp_all

section Write

variable {s : State} {addr len : Word} (hwf : s.cfg.wf = true) (hlen : len ≠ 0) (hfit : addr.toNat + len.toNat < 2 ^ 32)
include hwf hlen hfit

/-- WRITE (rules R151, R152): the chunks, then the last. -/
theorem write_does (hw : s.cfg.welRetry ≠ 0) (hpw : s.cfg.programWaitTicks ≠ 0)
    (h : Answered (needsWrite s.cfg addr.toNat len.toNat) s) :
    (write addr len s).Does s () ⟨2 * len.toNat + 22 * chunkCount s.cfg.pageSize addr.toNat len.toNat,
      writeFrames s.cfg addr.toNat len.toNat, 0, bufferBytes s.host.hbuf 0 len.toNat⟩ (· = writtenAfter addr len s) := by
  have hp := Cfg.wf_pageSize_pos hwf
  have hn := toNat_pos_of_ne_zero hlen
  obtain ⟨i, hi⟩ : ∃ i, i + 1 = chunkCount s.cfg.pageSize addr.toNat len.toNat := ⟨_, Nat.succ_pred (chunkCount_pos _ _ _).ne'⟩
  have hneeds : needsWrite s.cfg addr.toNat len.toNat
      = needsChunks s.cfg addr.toNat len.toNat i ++ needsChunk (chunkSize s.cfg.pageSize addr.toNat len.toNat i) := by
    rw [needsWrite, ← hi, needsChunks_succ]
  have h : Answered (needsChunks s.cfg addr.toNat len.toNat i
      ++ needsChunk (chunkSize s.cfg.pageSize addr.toNat len.toNat i)) (writeEntry addr len s) :=
    (h.cast hneeds).start (.writeEntry addr len s)
  obtain ⟨l, t, hl, hr, hat, hkept, hloop⟩ := writeChunks_sent (s := writeEntry addr len s) hp hn hfit
    (chunkAt_zero hp addr len s) (i := i) (by rw [← Nat.succ_le_iff]; exact hi.le) (fun _ => ⟨hw, hpw⟩) h.left
  have hst : Ran l s t := (Ran.writeEntry addr len s).trans hr
  have hcfg := hst.cfg
  have hbuf : t.host.hbuf = s.host.hbuf := hkept.hbuf
  have hsteps := chunkOffset_last hp hn hi
  obtain ⟨m, u, hm, hru, hlocu, hatu, hloopu⟩ := writeChunk_sent (s := t) (by rwa [hcfg]) hn hfit hat (by rw [hcfg]; omega)
    (by rwa [hcfg]) (by rwa [hcfg])
    (by rw [hcfg]; exact h.past hr hl (needsChunks_length hp hn (by rw [← Nat.succ_le_iff]; exact hi.le)).symm)
  obtain ⟨hcur, hoff, hend, hsize⟩ := nextChunkRegs_last rfl hatu (by rwa [hru.cfg, hcfg]) hn (by omega)
    (by rwa [hru.cfg, hcfg])
  have hfuel : ∃ k, len.toNat = i + (k + 1) := by
    have := chunkCount_le hp hn addr.toNat
    exact ⟨len.toNat - i - 1, by omega⟩
  obtain ⟨k, hk⟩ := hfuel
  have hset : Ran [] u (nextChunkRegs u) := .of_env_eq rfl rfl rfl rfl rfl
  have hran := (hst.trans hru).trans hset
  rw [List.append_nil] at hran
  have heq : write addr len s = .ok () (nextChunkRegs u) := by
    have hloop' := hloop (k + 1)
    rw [← hk, hloopu, if_neg (by rw [hcfg]; omega)] at hloop'
    rw [write_eq hlen, hloop']
  refine ⟨l ++ m, ?_, nextChunkRegs u, heq, hran, ?_⟩
  · have htally := sentTally_add_chunk (c := s.cfg) s.host.hbuf hsteps
    rw [tally_append, hl, hm, hcfg, hbuf]
    refine Eq.trans htally ?_
    rw [hi, writeFrames]
    congr 1
    omega
  · have hbyte : inputByte t (21 + 2 * chunkSize s.cfg.pageSize addr.toNat len.toNat i)
        = inputByte s (2 * len.toNat + 22 * chunkCount s.cfg.pageSize addr.toNat len.toNat - 1) := by
      rw [hst.byteAfter hl]
      congr 1
      simp only [sentTally]
      have : (writeEntry addr len s).cfg = s.cfg := rfl
      rw [this]
      omega
    have hall : Local.Chunked s.loc (nextChunkRegs u).loc := (writeEntry_chunked addr len s).trans
      (hkept.trans (Local.Chunked.trans (hlocu ▸ chunkAfter_chunked _ t) (nextChunkRegs_chunked u)))
    have hlast : (nextChunkRegs u).loc.regs.idx = (chunkAfter (chunkSize t.cfg.pageSize addr.toNat len.toNat i) t).regs.idx
        ∧ (nextChunkRegs u).loc.regs.txn = txnRdsr t.cfg ∧ (nextChunkRegs u).loc.regs.tmoBus = t.cfg.busWaitTicks
        ∧ (nextChunkRegs u).loc.regs.tmoDev = t.cfg.programWaitTicks
        ∧ (nextChunkRegs u).loc.regs.srSnap = inputByte t (21 + 2 * chunkSize t.cfg.pageSize addr.toNat len.toNat i)
        ∧ (nextChunkRegs u).loc.bri.cfg = txnRdsr t.cfg := by
      change u.loc.regs.idx = _ ∧ u.loc.regs.txn = _ ∧ u.loc.regs.tmoBus = _ ∧ u.loc.regs.tmoDev = _ ∧ u.loc.regs.srSnap = _
        ∧ u.loc.bri.cfg = _
      rw [hlocu]
      exact ⟨rfl, rfl, rfl, rfl, rfl, rfl⟩
    obtain ⟨hidx, htxn, hbus, hdev, hsnap, hbri⟩ := hlast
    have hsum : BitVec.ofNat 32 (addr.toNat + len.toNat) = addr + len := by simp [BitVec.ofNat_add]
    rw [hcfg] at hidx htxn hbus hdev hsnap hbri
    rw [hbyte] at hsnap
    refine Local.eq_of (hall.regs.trans ?_) hall.hbuf (hall.bri.trans ?_)
    · rw [hidx, htxn, hbus, hdev, hsnap, show (nextChunkRegs u).loc.regs.curAddr = addr + len from hcur.trans hsum,
        show (nextChunkRegs u).loc.regs.endAddr = addr + len from hend.trans hsum,
        show (nextChunkRegs u).loc.regs.bufOff = len from hoff.trans (by simp),
        show (nextChunkRegs u).loc.regs.curSize = 0 from hsize]
      rw [writtenAfter, ← hi]
      rfl
    · rw [hbri]
      rfl

end Write

/-- What a write leaves does not depend on the record that called it. -/
theorem writtenAfter_of_ran {s t : State} {addr len : Word} (hr : Ran [] s t) (hl : t.loc = s.loc) :
    writtenAfter addr len t = writtenAfter addr len s := by
  have hbri : t.bri = s.bri := congrArg Local.bri hl
  have hbuf : t.host.hbuf = s.host.hbuf := congrArg Local.hbuf hl
  have hbyte : ∀ k, inputByte t k = inputByte s k := fun k => by rw [hr.inputByte]; simp
  simp only [writtenAfter, hr.cfg, hl, hbri, hbuf, hbyte]

/-- WRITE, from a state in which only SEQ's record was entered. -/
theorem write_does_from {s t : State} {addr len : Word} (hr : Ran [] s t) (hl : t.loc = s.loc) (hwf : s.cfg.wf = true)
    (hlen : len ≠ 0) (hfit : addr.toNat + len.toNat < 2 ^ 32) (hw : s.cfg.welRetry ≠ 0) (hpw : s.cfg.programWaitTicks ≠ 0)
    (h : Answered (needsWrite s.cfg addr.toNat len.toNat) s) :
    (write addr len t).Does t () ⟨2 * len.toNat + 22 * chunkCount s.cfg.pageSize addr.toNat len.toNat,
      writeFrames s.cfg addr.toNat len.toNat, 0, bufferBytes s.host.hbuf 0 len.toNat⟩ (· = writtenAfter addr len s) := by
  have hwrite := write_does (s := t) (by rwa [hr.cfg]) hlen hfit (by rwa [hr.cfg]) (by rwa [hr.cfg])
    (by rw [hr.cfg]; exact h.start hr)
  have hbuf : t.host.hbuf = s.host.hbuf := congrArg Local.hbuf hl
  rwa [hr.cfg, hbuf, writtenAfter_of_ran hr hl] at hwrite

/-- Settles O29: the chunks of the range. -/
theorem writeCompletes : Obligations.WriteCompletes := by
  intro s addr len n k hwf hi hlen hfit hw hpw h
  obtain ⟨t, q, hexec, rfl, hend⟩ := run_does (exec_write addr len s) hi fun t hr hl =>
    write_does_from hr hl hwf hlen hfit hw hpw h
  exact ⟨t, hexec, hend.seq, hend.frames, hend.bytes.trans (bufferBytes_zero _ _), hend.sameSurroundings rfl,
    hend.lastConfigured rfl, hend.tookSteps⟩

/-- Settles O36: ABI_PROGRAM calls WRITE at the masked address. -/
theorem abiProgramCompletes : Obligations.AbiProgramCompletes := by
  intro s addr len a n k hwf hi hlen hfit hw hpw h
  obtain ⟨t, q, hexec, rfl, hend⟩ := run_does (exec_abiProgram addr len s) hi fun t hr hl => by
    have hcall : (abiProgram addr len t).Does t () ⟨2 * n + 22 * k, writeFrames s.cfg a.toNat n, 0, bufferBytes s.host.hbuf 0 n⟩
        (· = writtenAfter a len s) := Res.Does.call fun u hru hlu => by
      have hmask : abiMask t.cfg addr = a := by rw [hr.cfg]; rfl
      rw [hmask]
      exact write_does_from (by simpa using hr.trans hru) (hlu.trans hl) hwf hlen hfit hw hpw h
    exact hcall
  refine ⟨t, hexec, by rw [hend.seq]; rfl, by rw [hend.seq]; rfl, by rw [hend.seq]; rfl, by rw [hend.seq]; rfl,
    by rw [hend.seq]; rfl, by rw [hend.seq]; rfl, by rw [hend.seq]; rfl, by rw [hend.seq]; rfl, by rw [hend.seq]; rfl,
    by rw [hend.seq]; rfl, ?_, hend.frames, hend.bytes.trans (bufferBytes_zero _ _), hend.sameSurroundings rfl,
    hend.lastConfigured rfl, hend.tookSteps⟩
  rw [hend.seq]
  exact hi

/-! ### WRITE that fails -/

section Failures

variable {s : State} {addr len : Word} {i : Nat}

/-- The state of a WRITE that failed in chunk `i` after `k` of its bytes. -/
theorem writeStopped_of {T : Tally} {code : Byte} {cause : Cause} {k : Nat} {q q' : Local} {t : State}
    (hp : 0 < s.cfg.pageSize) (hT : T.bytes = bufferBytes s.host.hbuf (chunkStart s.cfg.pageSize addr.toNat i - addr.toNat) k)
    (hend : Ended (((sentTally s.cfg addr.toNat len.toNat s.host.hbuf i).add T).add ⟨1, [], 0, []⟩) (failSeq code cause q'.regs) q' s t)
    (hlast : (newCalls s t).getLast? = some .clearAll) (hkept : Local.Chunked s.loc q)
    (hat : ChunkAt s.cfg addr.toNat len.toNat i q.regs) (hsame : Local.SameChunk q q') :
    writeStopped addr len i k code cause T.frames s t := by
  have hrange := hsame.range
  have haddr : BitVec.ofNat 32 (chunkStart s.cfg.pageSize addr.toNat i)
      = addr + BitVec.ofNat 32 (chunkStart s.cfg.pageSize addr.toNat i - addr.toNat) := by
    have hle := le_chunkStart hp addr.toNat i
    conv_lhs => rw [← Nat.add_sub_cancel' hle]
    simp [BitVec.ofNat_add]
  have hregs : q.regs.erAddr = s.seq.erAddr ∧ q.regs.erEnd = s.seq.erEnd ∧ q.regs.inited = s.seq.inited := by
    rw [hkept.regs]
    exact ⟨rfl, rfl, rfl⟩
  obtain ⟨her, here, hin⟩ := hregs
  refine ⟨by rw [hend.seq]; rfl, by rw [hend.seq]; rfl, by rw [hend.seq]; rfl, by rw [hend.seq]; rfl, by rw [hend.seq]; rfl,
    by rw [hend.seq]; rfl, ?_, ?_, ?_, ?_, ?_, ?_, ?_, ?_, ?_, hlast, ?_⟩
  · rw [hend.seq, ← haddr, ← hat.curAddr]
    exact hrange.curAddr
  · rw [hend.seq]
    exact hrange.endAddr.trans (hat.endAddr.trans (by simp [BitVec.ofNat_add]))
  · rw [hend.seq]
    exact hrange.bufOff.trans hat.bufOff
  · rw [hend.seq]
    exact hrange.curSize.trans hat.curSize
  · rw [hend.seq]
    exact hrange.erAddr.trans her
  · rw [hend.seq]
    exact hrange.erEnd.trans here
  · rw [hend.seq]
    exact hrange.inited.trans hin
  · rw [hend.frames]
    exact List.append_nil _
  · have hbytes := bufferBytes_append s.host.hbuf 0 (chunkStart s.cfg.pageSize addr.toNat i - addr.toNat) k
    rw [Nat.zero_add] at hbytes
    rw [hend.bytes, ← bufferBytes_zero, ← hbytes, ← hT]
    exact List.append_nil _
  · exact hend.sameSurroundings (hsame.hbuf.trans hkept.hbuf)

/-- A WRITE that fails in chunk `i`, from the way its chunk stops. -/
theorem write_stops (hwf : s.cfg.wf = true) (hinit : s.seq.inited = true) (hlen : len ≠ 0)
    (hfit : addr.toNat + len.toNat < 2 ^ 32) (hi : i < chunkCount s.cfg.pageSize addr.toNat len.toNat)
    (hpos : 0 < i → s.cfg.welRetry ≠ 0 ∧ s.cfg.programWaitTicks ≠ 0) (h : Answered (needsChunks s.cfg addr.toNat len.toNat i) s)
    {code : Byte} {cause : Cause} {T : Tally} {k : Nat} {P : Local → Local → Prop}
    (hT : T.bytes = bufferBytes s.host.hbuf (chunkStart s.cfg.pageSize addr.toNat i - addr.toNat) k)
    (hP : ∀ q q', P q q' → Local.SameChunk q q')
    (hstop : ∀ l t, tally l = sentTally s.cfg addr.toNat len.toNat s.host.hbuf i →
      l.length = (needsChunks s.cfg addr.toNat len.toNat i).length → Ran l s t → t.host.hbuf = s.host.hbuf →
      ChunkOf (chunkSize s.cfg.pageSize addr.toNat len.toNat i) (chunkStart s.cfg.pageSize addr.toNat i - addr.toNat)
        (chunkTxn s.cfg addr.toNat len.toNat i) t →
      (sendChunk t).Stops t code cause T (P t.loc)) :
    ∃ t, exec (.write addr len) s = .next t
      ∧ tookSteps (22 * i + 2 * (chunkStart s.cfg.pageSize addr.toNat i - addr.toNat) + T.steps + 1) s t
      ∧ writeStopped addr len i k code cause T.frames s t ∧ ∃ q q', P q q' ∧ t.seq = failSeq code cause q'.regs := by
  have hp := Cfg.wf_pageSize_pos hwf
  have hn := toNat_pos_of_ne_zero hlen
  obtain ⟨m, hm⟩ : ∃ m, len.toNat = i + (m + 1) := by
    have := chunkCount_le hp hn addr.toNat
    exact ⟨len.toNat - i - 1, by omega⟩
  obtain ⟨t, q', hexec, ⟨q, hkept, hat, hq⟩, hend, hlast⟩ := run_stops (exec_write addr len s) hinit h.1
    (P := fun q' => ∃ q, Local.Chunked s.loc q ∧ ChunkAt s.cfg addr.toNat len.toNat i q.regs ∧ P q q') fun t hr hl => by
    have hcfg := hr.cfg
    have hbuf : t.host.hbuf = s.host.hbuf := congrArg Local.hbuf hl
    have hentry : Ran [] s (writeEntry addr len t) := hr.trans (.writeEntry addr len t)
    have hcfg' : (writeEntry addr len t).cfg = s.cfg := hcfg
    have hbuf' : (writeEntry addr len t).host.hbuf = s.host.hbuf := hbuf
    have hstops := writeChunks_stops (s := writeEntry addr len t) (i := i) (by rwa [hcfg']) hn hfit
      (chunkAt_zero (by rwa [hcfg']) addr len t) (by rwa [hcfg']) (by rwa [hcfg']) (by rw [hcfg']; exact h.start hentry)
      (code := code) (cause := cause) (T := T) (P := P)
      (fun l u hl hlen' hru hbu hat => by
        rw [hcfg'] at hat hlen'
        rw [hcfg', hbuf'] at hl
        rw [hbuf'] at hbu
        exact hstop l u hl hlen' (hentry.trans hru) hbu hat) m
    rw [← hm, ← write_eq hlen, hcfg', hbuf'] at hstops
    exact (hstops.after (.writeEntry addr len t)).mono fun q' ⟨q, hkept, hat, hq⟩ =>
      ⟨q, hl ▸ (writeEntry_chunked addr len t).trans hkept, hat, hq⟩
  exact ⟨t, hexec, hend.tookSteps, writeStopped_of hp hT hend hlast hkept hat (hP q q' hq), q, q', hq, hend.seq⟩

end Failures

theorem tookSteps_of {s t : State} {n m : Nat} (h : tookSteps n s t) (e : n = m) : tookSteps m s t := e ▸ h

/-- Settles O31: each stage of chunk `i` fails as the chunk does, after the chunks before it. -/
theorem writeStageFailures : Obligations.WriteStageFailures := by
  intro s addr len i p b o m before wren rdsr qpp hwf hinit hlen hfit hi hpos
  have hstop := fun {code cause T k P} => write_stops (code := code) (cause := cause) (T := T) (k := k) (P := P)
    hwf hinit hlen hfit hi hpos
  have hlenb : before.length = o := needsChunks_length (Cfg.wf_pageSize_pos hwf) (toNat_pos_of_ne_zero hlen) hi
  have hnever : ∀ {mask e k l t}, NeverMet mask e (o + k) s → Ran l s t → l.length = before.length → NeverMet mask e k t :=
    fun hno hr hl j hj => by
      rw [hr.drawAt, hl, hlenb, ← Nat.add_assoc]
      exact hno j (hr.cfg ▸ hj)
  refine ⟨fun h => ?_, fun hw h hno => ?_, fun k hk hw h hno => ?_, fun hw h hno => ?_, fun hw h => ?_⟩
  · have h : Answered (before ++ (needsSend ++ needsNoLatch s.cfg.welRetry.toNat)) s := h.cast (List.append_assoc _ _ _)
    obtain ⟨t, hexec, hsteps, hstopped, _⟩ := hstop (k := 0) (P := Local.SameChunk) h.left rfl (fun _ _ => id)
      fun l t hl hlen hr hbuf hat => by
        have hchunk := sendChunk_unlatched (s := t) (by rw [hr.cfg]; exact h.after hr hlen)
        rwa [hr.cfg] at hchunk
    exact ⟨t, hexec, tookSteps_of (n := o + (5 + 7 * s.cfg.welRetry.toNat) + 1) hsteps (by omega), hstopped⟩
  · obtain ⟨t, hexec, hsteps, hstopped, _⟩ := hstop (k := 0) (P := Local.SameChunk) h.left rfl (fun _ _ => id)
      fun l t hl hlen hr hbuf hat => by
        have hchunk := sendChunk_unsent hat (by rwa [hr.cfg]) (h.after hr hlen)
          (hnever (neverMet_busy hno) hr hlen)
        rwa [hr.cfg] at hchunk
    exact ⟨t, hexec, tookSteps_of (n := o + (11 + 2 * b) + 1) hsteps (by omega), hstopped⟩
  · have hno' : NeverMet maskFt true (o + (14 + 2 * k)) s := neverMet_ft fun j hj => by
      rw [← Nat.add_assoc o]
      exact hno j hj
    obtain ⟨t, hexec, hsteps, hstopped, q, q', hq, hseq⟩ := hstop (P := Local.StoppedAt k)
      (T := Tally.add ⟨14 + 2 * k, [wren, rdsr, qpp], 0, bufferBytes s.host.hbuf (chunkStart p addr.toNat i - addr.toNat) k⟩
        (stuckTally s.cfg)) h.left (List.append_nil _) (fun _ _ h => h.same)
      fun l t hl hlen hr hbuf hat => by
        have hchunk := sendChunk_unfilled hat hk (by rwa [hr.cfg]) (h.after hr hlen) (hnever hno' hr hlen)
        rwa [hr.cfg, hbuf] at hchunk
    refine ⟨t, hexec, tookSteps_of (n := o + (14 + 2 * k + 2 * b) + 1) hsteps (by omega), hstopped, ?_⟩
    rw [hseq]
    exact hq.idx
  · have hno' : NeverMet maskTc true (o + (14 + 2 * m)) s := neverMet_tc fun j hj => by
      rw [← Nat.add_assoc o]
      exact hno j hj
    obtain ⟨t, hexec, hsteps, hstopped, q, q', hq, hseq⟩ := hstop (P := Local.StoppedAt m)
      (T := Tally.add ⟨14 + 2 * m, [wren, rdsr, qpp], 0, bufferBytes s.host.hbuf (chunkStart p addr.toNat i - addr.toNat) m⟩
        (stuckTally s.cfg)) h.left (List.append_nil _) (fun _ _ h => h.same)
      fun l t hl hlen hr hbuf hat => by
        have hchunk := sendChunk_unfinished hat (by rwa [hr.cfg]) (h.after hr hlen) (hnever hno' hr hlen)
        rwa [hr.cfg, hbuf] at hchunk
    refine ⟨t, hexec, tookSteps_of (n := o + (14 + 2 * m + 2 * b) + 1) hsteps (by omega), hstopped, ?_⟩
    rw [hseq]
    exact hq.idx
  · have h : Answered (before ++ (needsFill m ++ [.complete, .any] ++ needsBusy s.cfg.programWaitTicks.toNat)) s :=
      h.cast (by simp only [List.append_assoc])
    obtain ⟨t, hexec, hsteps, hstopped, q, q', hq, hseq⟩ := hstop (P := Local.StoppedAt m)
      (T := Tally.add ⟨16 + 2 * m, [wren, rdsr, qpp], 0, bufferBytes s.host.hbuf (chunkStart p addr.toNat i - addr.toNat) m⟩
        (turnsTally s.cfg s.cfg.programWaitTicks.toNat)) h.left (List.append_nil _) (fun _ _ h => h.same)
      fun l t hl hlen hr hbuf hat => by
        have hchunk := sendChunk_stops hat (by rwa [hr.cfg]) (by rw [hr.cfg]; exact h.after hr hlen)
        rwa [hr.cfg, hbuf] at hchunk
    refine ⟨t, hexec, tookSteps_of (n := o + (16 + 2 * m + 7 * s.cfg.programWaitTicks.toNat) + 1) hsteps (by omega), hstopped, ?_⟩
    rw [hseq]
    exact hq.idx

end Sys2Proof.Machine
end

section
/-! The program frames of a WRITE that succeeds, in either environment (rule R152). -/

namespace Sys2Proof.Machine

/-- The program frames between two states. -/
def programs (c : Cfg) (s t : State) : List Txn := (newFrames s t).filter fun x => x.opcode == c.opQuadProgram

theorem programs_trans {c : Cfg} {s t u : State} (h : Traced s t) (k : Traced t u) :
    programs c s u = programs c s t ++ programs c t u := by
  rw [programs, newFrames_trans h.trace k.trace, List.filter_append]
  rfl

theorem HarmlessFrame.not_program {c : Cfg} {x : Txn} (h : HarmlessFrame c x) : x.opcode ≠ c.opQuadProgram := fun e => by
  have hmem : x.opcode ∈ [c.opQuadProgram, c.opErase4K, c.opErase32K, c.opErase64K, c.opBulkErase] := by simp [e]
  exact absurd (List.contains_iff_mem.mpr hmem) (Bool.eq_false_iff.mp h)

/-- No program frame in a part with harmless frames only. -/
theorem Small.programs_nil {c : Cfg} {n : Nat} {s t : State} (h : Small n (HarmlessFrame c) s t) : programs c s t = [] :=
  List.filter_eq_nil_iff.mpr fun x hx => by simpa using (h.frames x hx).not_program

/-- The one frame of ISSUE. -/
theorem briConfigure_calls {ph : Nat} {x : Txn} {s t : State} (h : briConfigure ph x s = .ok () t) :
    Continues s t ∧ newCalls s t = [.configure x] := by
  obtain ⟨u, hu, ht⟩ := seqStep_ok_move h
  have hrec : ∃ b, u = record (.configure x) ((advance (setPhase ph s)).withBri b) := by
    unfold onController at hu
    split at hu
    · cases hu; exact ⟨_, rfl⟩
    · split at hu
      · split at hu
        · cases hu
        · cases hu; exact ⟨_, rfl⟩
      · cases hu
  obtain ⟨b, rfl⟩ := hrec
  have htrace : t.env.trace = { pc := (setPhase ph s).seq.pc, call := .configure x } :: s.env.trace := by rw [ht.env]; rfl
  exact ⟨⟨[_], htrace⟩, newCalls_of_trace_cons htrace⟩

/-- A part that ends `Ok` and kept to harmless frames and the loop registers. -/
theorem Res.Within.programs_nil {α : Type} {c : Cfg} {n : Nat} {L : List (Byte × Cause)} {K : Seq → Seq → Prop} {s t : State}
    {r : Res α} {a : α} (h : r.Within n (HarmlessFrame c) L K s) (hr : r = .ok a t) :
    Traced s t ∧ K s.seq t.seq ∧ programs c s t = [] := by
  rw [hr] at h
  obtain ⟨htr, hsmall, hk⟩ := h
  exact ⟨htr, hk, hsmall.programs_nil⟩

section Chunk

variable {c : Cfg} {s t : State}

/-- The frame of ISSUE is configured, and the trigger that follows configures none. -/
theorem startFrame_programs {x : Txn} (hx : x.opcode = c.opQuadProgram) (h : startFrame x s = .ok () t) :
    Continues s t ∧ programs c s t = [x] := by
  obtain ⟨_, u, hu, ht⟩ := Res.bind_eq_ok.mp h
  obtain ⟨hcont, hcalls⟩ := briConfigure_calls hu
  obtain ⟨htr, _, hnone⟩ := (briTrigger_within (F := HarmlessFrame c) (L := []) SameRange.keeps 3).programs_nil ht
  have hsu : Continues s u := hcont
  have hframes : newFrames s u = [x] := by
    have hcalls' : newCalls s u = [.configure x] := hcalls
    rw [newFrames, hcalls']
    rfl
  refine ⟨hsu.trans htr.trace, ?_⟩
  rw [programs, newFrames_trans hsu htr.trace, List.filter_append, hframes]
  exact (congrArg₂ (· ++ ·) (by simp [hx]) hnone).trans (List.append_nil _)

/-- ISSUE that ends `Ok` configured its frame and no other. -/
theorem callIssue_programs {ph : Nat} {code : Byte} {x : Txn} (hx : x.opcode = c.opQuadProgram)
    (h : callIssue ph code x s = .ok () t) : Traced s t ∧ SameRange s.seq t.seq ∧ programs c s t = [x] := by
  obtain ⟨htr, hk⟩ := (callIssue_within (F := fun _ => True) (L := [(code, .busTimeout)]) SameRange.keeps (c := s.cfg) rfl ph
    (x := x) trivial (by simp)).keeps h
  refine ⟨htr, hk, ?_⟩
  obtain ⟨u, hu, rfl⟩ := Res.popped_eq_ok.mp (Res.orTimeout_eq_ok.mp h)
  obtain ⟨w, v, hv, hk⟩ := Res.bind_eq_ok.mp hu
  cases w with
  | timeout => cases hk
  | met =>
    obtain ⟨_, y, hy, hz⟩ := Res.bind_eq_ok.mp hk
    cases hz
    obtain ⟨htv, _, hnone⟩ := (callWait_within (F := HarmlessFrame c) (L := []) SameRange.keeps rfl 1 maskBusy false).programs_nil hv
    obtain ⟨hcont, hone⟩ := startFrame_programs hx hy
    have hall : programs c (pushProc .issue (setPhase ph s)) u = [x] := by
      rw [programs, newFrames_trans htv.trace hcont, List.filter_append]
      exact (congrArg₂ (· ++ ·) hnone hone).trans (List.nil_append _)
    exact hall

/-- The byte loop configures no frame, in either environment. -/
theorem writeBytes_programs (hd : s.env.model = .ref → s.bri.cfg.direction = .write) {n : Nat}
    (h : writeBytes n s = .ok () t) : Traced s t ∧ SameRange s.seq t.seq ∧ programs c s t = [] :=
  (writeBytes_within (F := HarmlessFrame c) (L := [(3, .busTimeout)]) SameRange.keeps SameRange.idx (by simp) n s rfl
    hd).programs_nil h

variable (hwf : s.cfg.wf = true)
include hwf

/-- A chunk that ends `Ok` issued its own program frame and no other. -/
theorem sendChunk_programs (h : sendChunk s = .ok () t) : Traced s t ∧ SameRange s.seq t.seq
    ∧ programs s.cfg s t = [txnQpp s.cfg (trunc24 s.seq.curAddr) s.seq.curSize] := by
  have hK := SameRange.keeps
  have hR := consumesLatch_rdsr hwf
  obtain ⟨_, s1, h1, h⟩ := Res.bind_eq_ok.mp h
  obtain ⟨_, s2, h2, h⟩ := Res.bind_eq_ok.mp h
  obtain ⟨_, s3, h3, h⟩ := Res.bind_eq_ok.mp h
  obtain ⟨_, s4, h4, h⟩ := Res.bind_eq_ok.mp h
  obtain ⟨_, s5, h5, h6⟩ := Res.bind_eq_ok.mp h
  obtain ⟨t1, k1, p1⟩ := (callWriteEnable_within (F := HarmlessFrame s.cfg) (L := enableResults 1) hK rfl
    (consumesLatch_wren hwf) hR fun p hp => hp).programs_nil h1
  rw [t1.cfg, k1.curAddr, k1.curSize] at h2
  obtain ⟨t2, k2, p2⟩ := callIssue_programs (c := s.cfg) rfl h2
  have hdir : (setIdx 0 s2).env.model = .ref → (setIdx 0 s2).bri.cfg.direction = .write := fun _ => by
    rw [setIdx_bri, callIssue_ok h2]
    rfl
  obtain ⟨t3, k3, p3⟩ := writeBytes_programs (c := s.cfg) hdir h3
  obtain ⟨t4, k4, p4⟩ := (callWaitOr_within (F := HarmlessFrame s.cfg) (L := [(4, .busTimeout)]) hK rfl 5 maskTc true
    (by simp)).programs_nil h4
  obtain ⟨t5, k5, p5⟩ := (briClearTc_within (F := HarmlessFrame s.cfg) (L := []) hK 6).programs_nil h5
  have t3' : Traced s2 s3 := Traced.trans (.withSeq s2 _) t3
  have p3' : programs s.cfg s2 s3 = [] := p3
  have k3' : SameRange s2.seq s3.seq := hK.trans _ _ _ (SameRange.idx _ _) k3
  have t12 := t1.trans t2
  have t123 := t12.trans t3'
  have t1234 := t123.trans t4
  have t12345 := t1234.trans t5
  have h6' := callWaitNotBusy_within (F := HarmlessFrame s.cfg) (L := deviceResults 5) hK t12345.cfg 7 (code := 5)
    s5.cfg.programWaitTicks hR fun p hp => hp
  obtain ⟨t6, k6, p6⟩ := h6'.programs_nil h6
  refine ⟨t12345.trans t6, ?_, ?_⟩
  · exact hK.trans _ _ _ k1 (hK.trans _ _ _ k2 (hK.trans _ _ _ k3' (hK.trans _ _ _ k4 (hK.trans _ _ _ k5 k6))))
  · rw [programs_trans t12345 t6, programs_trans t1234 t5, programs_trans t123 t4, programs_trans t12 t3', programs_trans t1 t2,
      p1, p2, p3', p4, p5, p6]
    rfl

end Chunk

section Loop

variable {a n : Nat} (hn : 0 < n) (hn' : a + n < 2 ^ 32)
include hn hn'

/-- The chunk loop from chunk `j` on issues the program frames of the chunks left. -/
theorem writeChunks_programs : ∀ {k j : Nat} {s t : State}, s.cfg.wf = true → ChunkAt s.cfg a n j s.seq →
    j < chunkCount s.cfg.pageSize a n → writeChunks k s = .ok () t →
    Traced s t ∧ programs s.cfg s t = (List.range' j (chunkCount s.cfg.pageSize a n - j)).map (chunkTxn s.cfg a n)
  | 0, _, _, _, _, _, _, h => by cases h
  | k + 1, j, s, t, hwf, hat, hj, h => by
    have hp := Cfg.wf_pageSize_pos hwf
    rw [writeChunks, writeChunk_eq] at h
    obtain ⟨_, v, hv, h⟩ := Res.bind_eq_ok.mp h
    obtain ⟨_, u, hu, hnext⟩ := Res.bind_eq_ok.mp hv
    cases hnext
    obtain ⟨htr, hk, hone⟩ := sendChunk_programs hwf hu
    have hat' := hat.of_sameRange hk
    have hframe : txnQpp s.cfg (trunc24 s.seq.curAddr) s.seq.curSize = chunkTxn s.cfg a n j :=
      (hat.chunkOf hp hn (by omega) hj).frame
    rw [hframe] at hone
    have htr' : Traced s (nextChunkRegs u) := htr.trans (.withSeq u _)
    have hone' : programs s.cfg s (nextChunkRegs u) = [chunkTxn s.cfg a n j] := hone
    have hleft : chunkCount s.cfg.pageSize a n - j = chunkCount s.cfg.pageSize a n - (j + 1) + 1 := by omega
    rw [hleft, List.range'_succ, List.map_cons]
    simp only [nextChunkRegs_lt_iff hat' hp hn hn' hj] at h
    split at h
    · next hlt =>
      have hc : (nextChunkRegs u).cfg = s.cfg := htr.cfg
      obtain ⟨htr'', hrest⟩ := writeChunks_programs (k := k) (j := j + 1) (s := nextChunkRegs u) (by rwa [hc])
        (by rw [hc]; exact chunkAt_succ htr.cfg hat' hp hn (by omega) hlt) (by rwa [hc]) h
      rw [hc] at hrest
      exact ⟨htr'.trans htr'', by rw [programs_trans htr' htr'', hone', hrest]; rfl⟩
    · next hlast =>
      cases h
      refine ⟨htr', ?_⟩
      rw [hone', show chunkCount s.cfg.pageSize a n - (j + 1) = 0 by omega]
      rfl

end Loop

/-! ### An operation that succeeds -/

/-- The end of a part that shows code 0 was `Ok`: its failures have other codes, and no reset was to come. -/
theorem finish_success {α : Type} {n : Nat} {F : Txn → Prop} {L : List (Byte × Cause)} {K : Seq → Seq → Prop} {s t : State}
    {r : Res α} {value : α → DWord} (h : r.Within n F L K s) (hr : s.host.resetAt = none) (hL : ∀ p ∈ L, p.1 ≠ 0)
    (hfin : finish value id r = .next t) (h0 : t.seq.resCode = 0) :
    ∃ a u, r = .ok a u ∧ t = complete 0 .none (value a) u := by
  cases r with
  | ok a u => cases hfin; exact ⟨a, u, rfl, rfl⟩
  | fail c e u =>
    obtain ⟨htr, _, _, hmem⟩ := h
    have hclean := cleanup_within (F := F) (L := []) (s := u) SameInited.keeps
    simp only [finish] at hfin
    cases hc : cleanup u with
    | ok a v =>
      rw [hc] at hfin
      cases hfin
      exact absurd h0 (hL _ hmem)
    | fail d e' v =>
      rw [hc] at hclean
      exact absurd hclean.2.2.2 List.not_mem_nil
    | reset v =>
      rw [hc] at hclean
      exact absurd (htr.resetAt.trans hr) hclean.1.ne_none
    | fault f => rw [hc] at hfin; cases hfin
    | refused x => rw [hc] at hfin; cases hfin
  | reset u => exact absurd hr h.1.ne_none
  | fault f => cases hfin
  | refused x => cases hfin

/-- A gated operation that shows code 0 passed the gate. -/
theorem gated_success {s t : State} {run : State → Host.Outcome State Fault Refusal} (h : gated s run = .next t)
    (h0 : t.seq.resCode = 0) : s.seq.inited = true ∧ run s = .next t := by
  cases hi : s.seq.inited with
  | true =>
    rw [gated_open hi] at h
    exact ⟨rfl, h⟩
  | false =>
    rw [gated_closed hi] at h
    cases h
    cases h0

/-- The first and the last byte of a chunk lie in one page. -/
theorem chunk_page {p a n j : Nat} (hp : 0 < p) (hn : 0 < n) (hj : j < chunkCount p a n) :
    chunkStart p a j / p = (chunkEnd p a n j - 1) / p := by
  have hlt := chunkStart_lt_chunkEnd hp hn hj
  have hlo := page_le_chunkStart p a j
  have hhi : chunkEnd p a n j ≤ (a / p + j + 1) * p := Nat.min_le_left _ _
  have hstart : chunkStart p a j / p = a / p + j := Nat.div_eq_of_lt_le hlo (chunkStart_le_page hp a j)
  have hend : (chunkEnd p a n j - 1) / p = a / p + j := Nat.div_eq_of_lt_le (by omega) (by omega)
  rw [hstart, hend]

/-- Settles O30: the frames, by induction on the chunks; the rest is the arithmetic of the chunks. -/
theorem chunksTileTheRange : Obligations.ChunksTileTheRange := by
  intro s t addr len hwf hr hlen hfit hexec h0 p a n k
  have hp := Cfg.wf_pageSize_pos hwf
  have hn := toNat_pos_of_ne_zero hlen
  refine ⟨?_, rfl, chunkEnd_last hp hn rfl, fun j hj => ⟨chunkStart_lt_chunkEnd hp hn hj, chunkSize_le_page _ _ _ _,
    chunk_page hp hn hj⟩, fun j hj => ⟨chunkEnd_eq_chunkStart_succ hn hj, ?_⟩⟩
  · rw [exec_write] at hexec
    obtain ⟨_, hrun⟩ := gated_success hexec h0
    have hwithin := write_within (F := fun _ => True) (L := writeResults) (s := enterProc .write s) rfl addr len trivial trivial
      (fun _ _ _ => trivial) fun p hp => hp
    obtain ⟨_, u, hu, rfl⟩ := finish_success hwithin hr (by decide) hrun h0
    rw [write_eq hlen] at hu
    obtain ⟨_, hprog⟩ := writeChunks_programs hn hfit (s := writeEntry addr len (enterProc .write s)) hwf
      (chunkAt_zero hp addr len _) (chunkCount_pos _ _ _) hu
    rw [List.range_eq_range']
    exact hprog
  · rw [chunkEnd_eq_chunkStart_succ hn hj, chunkStart_succ, Nat.mul_mod_left]

end Sys2Proof.Machine
end

section
/-! Partial correctness under ENV-REF: what a procedure that ends `Ok` has made of the controller and the device, on every
schedule of the two agents (rules R211 to R221). -/

namespace Sys2Proof.Machine

/-! ### Results that end `Ok` -/

/-- Every `Ok` end is as `Φ` says. -/
def Res.Gives {α : Type} (r : Res α) (Φ : α → State → Prop) : Prop := ∀ ⦃a t⦄, r = .ok a t → Φ a t

section Gives

variable {α β : Type} {r : Res α} {Φ : α → State → Prop}

theorem Res.Gives.ok {a : α} {t : State} (h : Φ a t) : (Res.ok a t).Gives Φ := by
  intro b u e
  cases e
  exact h

theorem Res.Gives.refused (x : Refusal) : (Res.refused x : Res α).Gives Φ := by
  intro b u e
  cases e

theorem Res.Gives.bind {k : α → State → Res β} {Ψ : β → State → Prop} (h : r.Gives Φ)
    (hk : ∀ a t, Φ a t → (k a t).Gives Ψ) : (r.bind k).Gives Ψ := by
  intro b u e
  obtain ⟨a, t, ha, hb⟩ := Res.bind_eq_ok.mp e
  exact hk a t (h ha) hb

theorem Res.Gives.mono {Ψ : α → State → Prop} (h : r.Gives Φ) (hi : ∀ a t, Φ a t → Ψ a t) : r.Gives Ψ :=
  fun a t e => hi a t (h e)

theorem Res.Gives.recode (h : r.Gives Φ) (code : Byte) : (r.recode code).Gives Φ := fun _ _ e => h (Res.recode_eq_ok.mp e)

end Gives

/-! ### Controller and device under ENV-REF -/

/-- In the reference environment, with the parameters and the host given, controller and device are as `B` says. -/
structure RefAt (c : Cfg) (hs : HostSide) (B : Bri → Dev → Prop) (s : State) : Prop where
  cfg : s.cfg = c
  model : s.env.model = .ref
  host : s.host = hs
  at_ : B s.bri s.dev

/-- No step of an agent leaves `B`. -/
def Steady (c : Cfg) (B : Bri → Dev → Prop) : Prop :=
  ∀ ⦃a s t⦄, s.cfg = c → B s.bri s.dev → agentStep a s = .ok () t → B t.bri t.dev

section Steps

variable {c : Cfg} {hs : HostSide} {B : Bri → Dev → Prop} {s t : State} {ph : Nat}

theorem RefAt.mono {B' : Bri → Dev → Prop} (h : RefAt c hs B s) (hi : ∀ b d, B b d → B' b d) : RefAt c hs B' s :=
  ⟨h.cfg, h.model, h.host, hi _ _ h.at_⟩

theorem agentStep_move {a : AgentStep} (h : agentStep a s = .ok () t) : AgentMove s t := by
  have hends := agentStep_ends a s
  rw [h] at hends
  exact hends

theorem RefAt.agents (hB : Steady c B) : ∀ {l : List AgentStep} {s t : State}, RefAt c hs B s →
    agentSteps l s = .ok () t → RefAt c hs B t
  | [], _, _, h, e => by cases e; exact h
  | a :: l, s, t, h, e => by
    obtain ⟨_, u, hu, ht⟩ := Res.bind_eq_ok.mp e
    have hmove := agentStep_move hu
    exact RefAt.agents hB ⟨hmove.cfg.trans h.cfg, by rw [hmove.env]; exact h.model, hmove.host.trans h.host,
      hB h.cfg h.at_ hu⟩ ht

/-- A SEQ step: its action, and then the agents (rule R13). -/
theorem seqStep_gives {α : Type} {B' : α → Bri → Dev → Prop} {act : Draw → State → Res α} (h : RefAt c hs B s)
    (hact : ∀ d u, RefAt c hs B u → (act d u).Gives fun a v => RefAt c hs (B' a) v) (hB : ∀ a, Steady c (B' a)) :
    (seqStep ph s act).Gives fun a t => RefAt c hs (B' a) t := by
  intro a t e
  obtain ⟨_, u, hu, ho⟩ := seqStep_eq_ok.mp e
  have hu' := hact _ (advance (setPhase ph s)) ⟨h.cfg, h.model, h.host, h.at_⟩ hu
  rw [otherAgents_ref _ hu'.model] at ho
  exact hu'.agents (hB a) ho

/-- Under ENV-REF a primitive that ends `Ok` had an enabled controller (U4). -/
theorem onController_gives {α : Type} {x y : Res α} {Φ : α → State → Prop} (h : RefAt c hs B s)
    (hy : s.bri.en = true → y.Gives Φ) : (onController s x y).Gives Φ := fun _ _ e => by
  obtain ⟨hen, hy'⟩ := onController_ref_ok h.model e
  exact hy hen hy'

/-- A call: the FSM state is no part of the environment. -/
theorem call_gives {α : Type} {p : Proc} {body : State → Res α} {B' : α → Bri → Dev → Prop} (h : RefAt c hs B s)
    (hb : ∀ t, RefAt c hs B t → (body t).Gives fun a u => RefAt c hs (B' a) u) :
    (call ph p s body).Gives fun a u => RefAt c hs (B' a) u := by
  intro a t e
  obtain ⟨u, hu, rfl⟩ := Res.popped_eq_ok.mp e
  have h' := hb (pushProc p (setPhase ph s)) ⟨h.cfg, h.model, h.host, h.at_⟩ hu
  exact ⟨h'.cfg, h'.model, h'.host, h'.at_⟩

/-- A register write. -/
theorem RefAt.withSeq (h : RefAt c hs B s) (q : Seq) : RefAt c hs B (s.withSeq q) := ⟨h.cfg, h.model, h.host, h.at_⟩

theorem tick_gives (hB : Steady c B) (h : RefAt c hs B s) : (tick ph s).Gives fun _ t => RefAt c hs B t :=
  seqStep_gives h (fun _ _ hu => .ok ⟨hu.cfg, hu.model, hu.host, hu.at_⟩) fun _ => hB

/-- What a sample shows of the controller holds on, if the agents keep it. -/
theorem briFlags_gives {B' : FlagSet → Bri → Dev → Prop} (hB' : ∀ f, Steady c (B' f))
    (hi : ∀ b d, B b d → B' (controllerFlags c b) b d) (h : RefAt c hs B s) :
    (briFlags ph s).Gives fun f t => RefAt c hs (B' f) t :=
  seqStep_gives h (fun _ _ hu => onController_gives hu fun _ => .ok
    ⟨hu.cfg, hu.model, hu.host, hu.cfg.symm ▸ hi _ _ hu.at_⟩) hB'

theorem briConfigure_gives {B' : Bri → Dev → Prop} (hB' : Steady c B') {x : Txn}
    (hi : ∀ b d, B b d → b.en = true → b.busy = false → B' { b with cfg := x } d) (h : RefAt c hs B s) :
    (briConfigure ph x s).Gives fun _ t => RefAt c hs B' t := by
  refine seqStep_gives (B' := fun _ => B') h (fun _ u hu => onController_gives hu fun hen => ?_) fun _ => hB'
  split
  · exact .refused _
  · next hb => exact .ok ⟨hu.cfg, hu.model, hu.host, hi _ _ hu.at_ hen (by simpa using hb)⟩

theorem briTrigger_gives {B' : Bri → Dev → Prop} (hB' : Steady c B')
    (hi : ∀ b d, B b d → b.en = true → B' { b with busy := true, rem := b.cfg.length.toNat, out := [] } d)
    (h : RefAt c hs B s) : (briTrigger ph s).Gives fun _ t => RefAt c hs B' t :=
  seqStep_gives h (fun _ _ hu => onController_gives hu fun hen => .ok ⟨hu.cfg, hu.model, hu.host, hi _ _ hu.at_ hen⟩)
    fun _ => hB'

theorem briClearTc_gives {B' : Bri → Dev → Prop} (hB' : Steady c B') (hi : ∀ b d, B b d → B' { b with tc := false } d)
    (h : RefAt c hs B s) : (briClearTc ph s).Gives fun _ t => RefAt c hs B' t :=
  seqStep_gives h (fun _ _ hu => onController_gives hu fun _ => .ok ⟨hu.cfg, hu.model, hu.host, hi _ _ hu.at_⟩) fun _ => hB'

theorem briClearAll_gives {B' : Bri → Dev → Prop} (hB' : Steady c B') (hi : ∀ b d, B b d → B' { b with tc := false } d)
    (h : RefAt c hs B s) : (briClearAll ph s).Gives fun _ t => RefAt c hs B' t :=
  seqStep_gives h (fun _ _ hu => onController_gives hu fun _ => .ok ⟨hu.cfg, hu.model, hu.host, hi _ _ hu.at_⟩) fun _ => hB'

theorem briReadByte_gives {B' : Byte → Bri → Dev → Prop} (hB' : ∀ v, Steady c (B' v))
    (hi : ∀ b d v rest, B b d → b.fifo = v :: rest → B' v { b with fifo := rest } d) (h : RefAt c hs B s) :
    (briReadByte ph s).Gives fun v t => RefAt c hs (B' v) t := by
  refine seqStep_gives (B' := B') h (fun _ u hu => onController_gives hu fun _ => ?_) hB'
  split
  · exact .refused _
  · next v rest hf => exact .ok ⟨hu.cfg, hu.model, hu.host, hi _ _ _ _ hu.at_ hf⟩

theorem briWriteByte_gives {B' : Bri → Dev → Prop} (hB' : Steady c B') {v : Byte}
    (hi : ∀ b d, B b d → B' { b with fifo := b.fifo ++ [v] } d) (h : RefAt c hs B s) :
    (briWriteByte ph v s).Gives fun _ t => RefAt c hs B' t := by
  refine seqStep_gives (B' := fun _ => B') h (fun _ u hu => onController_gives hu fun _ => ?_) fun _ => hB'
  split
  · exact .ok ⟨hu.cfg, hu.model, hu.host, hi _ _ hu.at_⟩
  · exact .refused _

theorem Steady.and {B' : Bri → Dev → Prop} (h : Steady c B) (h' : Steady c B') : Steady c fun b d => B b d ∧ B' b d :=
  fun _ _ _ hc hb e => ⟨h hc hb.1 e, h' hc hb.2 e⟩

theorem Steady.imp {p : Prop} (h : Steady c B) : Steady c fun b d => p → B b d := fun _ _ _ hc hb e hp => h hc (hb hp) e

/-- A bus wait: what its condition shows holds on. -/
theorem waitFlagLoop_gives {Met : Bri → Dev → Prop} {mask : FlagSet} {e : Bool} (hB : Steady c B) (hMet : Steady c Met)
    (hi : ∀ b d, B b d → flagsMet mask e (controllerFlags c b) = true → Met b d) :
    ∀ {n : Nat} {s : State}, RefAt c hs B s → (waitFlagLoop mask e n s).Gives fun w t => RefAt c hs (fun b d => w = .met → Met b d) t
  | 0, s, h => .ok (h.mono fun _ _ _ => nofun)
  | n + 1, s, h => by
    have hflags := briFlags_gives (ph := 1) (B' := fun f b d => B b d ∧ (flagsMet mask e f = true → Met b d))
      (fun _ => hB.and hMet.imp) (fun b d hb => ⟨hb, hi b d hb⟩) h
    refine hflags.bind fun f t ht => ?_
    split
    · next hf => exact .ok (ht.mono fun _ _ hb _ => hb.2 hf)
    · exact (tick_gives hB (ht.mono fun _ _ => And.left)).bind fun _ u hu => waitFlagLoop_gives hB hMet hi (hu.withSeq _)

theorem callWaitOr_gives {Met : Bri → Dev → Prop} {mask : FlagSet} {e : Bool} {code : Byte} (hB : Steady c B)
    (hMet : Steady c Met) (hi : ∀ b d, B b d → flagsMet mask e (controllerFlags c b) = true → Met b d) (h : RefAt c hs B s) :
    ((callWait ph mask e s).orTimeout code).Gives fun _ t => RefAt c hs Met t := by
  intro _ t ht
  have hcall := call_gives (ph := ph) (p := .waitFlag) (body := waitFlag mask e s.cfg.busWaitTicks)
    (B' := fun w b d => w = .met → Met b d) h fun u hu => waitFlagLoop_gives hB hMet hi (hu.withSeq _)
  exact (hcall (Res.orTimeout_eq_ok.mp ht)).mono fun _ _ hm => hm rfl

end Steps

/-! ### Phases of the device -/

/-- A phase of the device that its own step does not leave. -/
structure DevSteady (c : Cfg) (P : Dev → Prop) : Prop where
  ends : ∀ s : State, s.cfg = c → P s.dev → P (deviceEnd s).dev

/-- A phase of the device that a status read does not leave either. -/
structure DevPhase (c : Cfg) (P : Dev → Prop) : Prop extends DevSteady c P where
  polled : ∀ d, P d → P { d with answer := .status, armed := false }

/-- No operation in progress, and the array as `R` says. -/
structure Rested (R : Mem → Prop) (d : Dev) : Prop where
  busy : d.busy = false
  op : d.op = .none
  mem : R d.mem

/-- The same with the latch. -/
structure Latch (R : Mem → Prop) (d : Dev) : Prop extends Rested R d where
  wel : d.wel = true

/-- The operation `o` in progress on an array as `R` says, or ended and the array as `R'` says. -/
inductive Working (o : DevOp) (R R' : Mem → Prop) (d : Dev) : Prop
  | busy (hb : d.busy = true) (ho : d.op = o) (hm : R d.mem)
  | ended (h : Rested R' d)

/-- The end of the operation `o` takes an array as `R` says to one as `R'` says. -/
def EndsWith (c : Cfg) (o : DevOp) (R R' : Mem → Prop) : Prop :=
  ∀ s : State, s.cfg = c → s.dev.busy = true → s.dev.op = o → R s.dev.mem → R' (deviceEnd s).dev.mem

section Phases

variable {c : Cfg} {R R' : Mem → Prop}

theorem rested_phase (c : Cfg) (R : Mem → Prop) : DevPhase c (Rested R) where
  ends s _ h := by rwa [deviceEnd_idle h.busy]
  polled _ h := ⟨h.busy, h.op, h.mem⟩

theorem latch_phase (c : Cfg) (R : Mem → Prop) : DevPhase c (Latch R) where
  ends s _ h := by rwa [deviceEnd_idle h.busy]
  polled _ h := ⟨⟨h.busy, h.op, h.mem⟩, h.wel⟩

theorem working_phase {o : DevOp} (h : EndsWith c o R R') : DevPhase c (Working o R R') where
  ends s hc
    | .busy hb ho hm => .ended ⟨by rw [deviceEnd_dev hb], by rw [deviceEnd_dev hb], h s hc hb ho hm⟩
    | .ended hr => .ended ((rested_phase c R').ends s hc hr)
  polled _
    | .busy hb ho hm => .busy hb ho hm
    | .ended hr => .ended ((rested_phase c R').polled _ hr)

/-- An idle device in the phase of an operation has ended it. -/
theorem Working.rested {o : DevOp} {d : Dev} (h : Working o R R' d) (hb : d.busy = false) : Rested R' d := by
  cases h with
  | busy hb' => rw [hb] at hb'; cases hb'
  | ended h => exact h

end Phases

/-! ### Phases of the controller -/

/-- Between frames: no stale flag, no byte, at most a drained read frame to end. -/
structure Settled (P : Dev → Prop) (b : Bri) (d : Dev) : Prop where
  en : b.en = true
  tc : b.tc = false
  fifo : b.fifo = []
  drained : b.busy = true → b.rem = 0 ∧ b.cfg.direction = .read
  dev : P d

/-- The same with nothing left to end. -/
structure Quiet (P : Dev → Prop) (b : Bri) (d : Dev) : Prop extends Settled P b d where
  busy : b.busy = false

/-- The frame `x` was just triggered. -/
structure Sent (x : Txn) (P : Dev → Prop) (b : Bri) (d : Dev) : Prop where
  en : b.en = true
  busy : b.busy = true
  tc : b.tc = false
  fifo : b.fifo = []
  rem : b.rem = x.length.toNat
  out : b.out = []
  cfg : b.cfg = x
  dev : P d

section Bus

variable {c : Cfg} {P : Dev → Prop}

/-- The agents keep a phase if the two of them do; a controller that has no frame does nothing. -/
theorem steady_of {B : Bri → Dev → Prop}
    (hbri : ∀ s t : State, s.cfg = c → B s.bri s.dev → s.bri.en = true → s.bri.busy = true →
      controllerStep s = .ok () t → B t.bri t.dev)
    (hdev : ∀ s : State, s.cfg = c → B s.bri s.dev → B s.bri (deviceEnd s).dev) : Steady c B := by
  intro a s t hc hb e
  cases a with
  | dev =>
    cases e
    have hbri : (deviceEnd s).bri = s.bri := (deviceEnd_move s).bri
    rw [hbri]
    exact hdev s hc hb
  | bri =>
    by_cases hrun : s.bri.en = true ∧ s.bri.busy = true
    · exact hbri s t hc hb hrun.1 hrun.2 e
    · have hidle : controllerStep s = .ok () s := if_neg (by simpa using hrun)
      rw [show agentStep .bri s = controllerStep s from rfl, hidle] at e
      cases e
      exact hb

theorem controllerStep_read {s : State} (hen : s.bri.en = true) (hb : s.bri.busy = true) (hd : s.bri.cfg.direction = .read) :
    controllerStep s = readFrameStep s := by
  rw [controllerStep, if_pos (by simp [hen, hb]), hd]

theorem controllerStep_none {s : State} (hen : s.bri.en = true) (hb : s.bri.busy = true) (hd : s.bri.cfg.direction = .none) :
    controllerStep s = commandFrameStep s := by
  rw [controllerStep, if_pos (by simp [hen, hb]), hd]

theorem controllerStep_write {s : State} (hen : s.bri.en = true) (hb : s.bri.busy = true) (hd : s.bri.cfg.direction = .write) :
    controllerStep s = writeFrameStep s := by
  rw [controllerStep, if_pos (by simp [hen, hb]), hd]

theorem quiet_steady (hP : DevSteady c P) : Steady c (Quiet P) :=
  steady_of (fun _ _ _ h _ hb _ => absurd (h.busy.symm.trans hb) nofun)
    fun s hc h => ⟨⟨h.en, h.tc, h.fifo, h.drained, hP.ends s hc h.dev⟩, h.busy⟩

theorem settled_steady (hP : DevSteady c P) : Steady c (Settled P) := by
  refine steady_of (fun s t hc h hen hb e => ?_) fun s hc h => ⟨h.en, h.tc, h.fifo, h.drained, hP.ends s hc h.dev⟩
  obtain ⟨hrem, hdir⟩ := h.drained hb
  rw [controllerStep_read hen hb hdir, readFrameStep, if_pos hrem, if_pos h.fifo] at e
  cases e
  exact ⟨h.en, h.tc, h.fifo, nofun, h.dev⟩

theorem DevSteady.any (c : Cfg) : DevSteady c fun _ => True := ⟨fun _ _ _ => trivial⟩

end Bus

/-! ### ISSUE -/

section Issue

variable {c : Cfg} {hs : HostSide} {P : Dev → Prop} {s : State} {ph : Nat} {code : Byte} {x : Txn}

theorem issue_gives {B : Bri → Dev → Prop} (hP : DevSteady c P) (hB : Steady c B) (hi : ∀ b d, Sent x P b d → B b d)
    (h : RefAt c hs (Settled P) s) : (callIssue ph code x s).Gives fun _ t => RefAt c hs B t := by
  intro _ t ht
  have hcall := call_gives (ph := ph) (p := .issue) (body := issue x) (B' := fun w b d => w = .met → B b d) h fun u hu => by
    have hwait := call_gives (ph := 1) (p := .waitFlag) (body := waitFlag maskBusy false u.cfg.busWaitTicks)
      (B' := fun w b d => w = .met → Quiet P b d) hu fun v hv => waitFlagLoop_gives (settled_steady hP) (quiet_steady hP)
        (fun b d hb hf => ⟨hb, by simpa [flagsMet, someFlag, maskBusy, controllerFlags] using hf⟩) (hv.withSeq _)
    refine hwait.bind fun w v hv => ?_
    cases w with
    | timeout => exact .ok (hv.mono fun _ _ _ => nofun)
    | met =>
      have hquiet : RefAt c hs (Quiet P) (setTxn x v) := (hv.mono fun _ _ hq => hq rfl).withSeq _
      have hset : Steady c fun b d => Quiet P b d ∧ b.cfg = x := by
        refine steady_of (fun _ _ _ h _ hb _ => absurd (h.1.busy.symm.trans hb) nofun) fun s hc h => ⟨?_, h.2⟩
        exact ⟨⟨h.1.en, h.1.tc, h.1.fifo, h.1.drained, hP.ends s hc h.1.dev⟩, h.1.busy⟩
      have hstart : (startFrame x v).Gives fun _ t => RefAt c hs B t :=
        (briConfigure_gives (ph := 2) (x := x) hset (fun b d hq _ _ => ⟨⟨⟨hq.en, hq.tc, hq.fifo,
          fun hb => absurd (hq.busy.symm.trans hb) nofun, hq.dev⟩, hq.busy⟩, rfl⟩) hquiet).bind fun _ w hw =>
        briTrigger_gives (ph := 3) hB (fun b d hq hen => hi _ _ ⟨hen, rfl, hq.1.tc, hq.1.fifo, congrArg (·.length.toNat) hq.2,
          rfl, hq.2, hq.1.dev⟩) hw
      exact hstart.bind fun _ w hw => .ok (hw.mono fun _ _ hb _ => hb)
  exact (hcall (Res.orTimeout_eq_ok.mp ht)).mono fun _ _ hb => hb rfl

end Issue

end Sys2Proof.Machine
end

section
/-! Command frames, status reads and device waits that end `Ok` under ENV-REF, and so ERASE and INIT_BUS that succeed (rules
R121, R122, R131 to R133, R161, R162, R171). -/

namespace Sys2Proof.Machine

/-! ### A command frame -/

/-- The frame has not reached the device, or it has and is complete. -/
inductive Commanded (x : Txn) (P Q : Dev → Prop) (b : Bri) (d : Dev) : Prop
  | pending (hen : b.en = true) (htc : b.tc = false) (hf : b.fifo = []) (hx : b.cfg = x) (hp : P d)
  | finished (hen : b.en = true) (hb : b.busy = false) (hf : b.fifo = []) (hq : Q d)

/-- A complete command frame. -/
structure CommandDone (Q : Dev → Prop) (b : Bri) (d : Dev) : Prop where
  en : b.en = true
  busy : b.busy = false
  fifo : b.fifo = []
  dev : Q d

section Command

variable {c : Cfg} {hs : HostSide} {P Q : Dev → Prop} {s : State} {op : Byte} {a : Option Addr24}

theorem commandTxn_direction (op : Byte) (a : Option Addr24) : (commandTxn op a).direction = .none := by cases a <;> rfl

theorem commandDone_steady (hQ : DevSteady c Q) : Steady c (CommandDone Q) :=
  steady_of (fun _ _ _ h _ hb _ => absurd (h.busy.symm.trans hb) nofun)
    fun s hc h => ⟨h.en, h.busy, h.fifo, hQ.ends s hc h.dev⟩

/-- The device's step upon a frame takes it from `P` to `Q`. -/
def Delivers (c : Cfg) (f : Frame) (P Q : Dev → Prop) : Prop :=
  ∀ ⦃u v : State⦄, u.cfg = c → P u.dev → deliver f u = .ok () v → Q v.dev

theorem deliver_bri {f : Frame} {u v : State} (h : deliver f u = .ok () v) : v.bri = u.bri := by
  have hends := deliver_ends f u
  rw [h] at hends
  exact DeviceMove.bri hends

theorem commanded_steady {x : Txn} (hx : x.direction = .none) (hP : DevSteady c P) (hQ : DevSteady c Q)
    (hd : Delivers c (frameOf x []) P Q) : Steady c (Commanded x P Q) := by
  refine steady_of (fun s t hc h hen hb e => ?_) fun s hc h => ?_
  · cases h with
    | finished _ hb' => rw [hb] at hb'; cases hb'
    | pending _ htc hf hcfg hp =>
      rw [controllerStep_none hen hb (by rw [hcfg, hx]), commandFrameStep, hcfg] at e
      obtain ⟨_, v, hv, hk⟩ := Res.bind_eq_ok.mp e
      cases hk
      have hbri := deliver_bri hv
      have hq : Q v.dev := hd hc hp hv
      exact .finished (by simp [hbri, hen]) rfl (by simp [hbri, hf]) hq
  · cases h with
    | finished hen hb hf hq => exact .finished hen hb hf (hQ.ends s hc hq)
    | pending hen htc hf hcfg hp => exact .pending hen htc hf hcfg (hP.ends s hc hp)

/-- SEND_COMMAND that ends `Ok` has had its frame delivered (rule R131). -/
theorem sendCommand_gives (hP : DevSteady c P) (hQ : DevSteady c Q) (hd : Delivers c (frameOf (commandTxn op a) []) P Q)
    (h : RefAt c hs (Settled P) s) : (sendCommand op a s).Gives fun _ t => RefAt c hs (Settled Q) t := by
  have hsteady := commanded_steady (commandTxn_direction op a) hP hQ hd
  refine (issue_gives hP hsteady (fun _ _ h => .pending h.en h.tc h.fifo h.cfg h.dev) h).bind fun _ t ht => ?_
  refine (callWaitOr_gives hsteady (commandDone_steady hQ) (fun b d hb hf => ?_) ht).bind fun _ u hu => ?_
  · have htc : b.tc = true := by simpa [flagsMet, someFlag, maskTc, controllerFlags] using hf
    cases hb with
    | pending _ htc' => rw [htc] at htc'; cases htc'
    | finished hen hb hf hq => exact ⟨hen, hb, hf, hq⟩
  · exact briClearTc_gives (settled_steady hQ)
      (fun b d h => ⟨h.en, rfl, h.fifo, fun hb => absurd (h.busy.symm.trans hb) nofun, h.dev⟩) hu

theorem callSendCommand_gives {ph : Nat} {code : Byte} (hP : DevSteady c P) (hQ : DevSteady c Q)
    (hd : Delivers c (frameOf (commandTxn op a) []) P Q) (h : RefAt c hs (Settled P) s) :
    (callSendCommand ph code op a s).Gives fun _ t => RefAt c hs (Settled Q) t :=
  (call_gives (B' := fun _ => Settled Q) h fun _ ht => sendCommand_gives hP hQ hd ht).recode code

end Command

/-! ### A status read -/

/-- The status frame has sent no byte, or it has sent its one byte, which says whether the device was busy. -/
inductive StatusSent (c : Cfg) (P Q : Dev → Prop) (b : Bri) (d : Dev) : Prop
  | unread (hen : b.en = true) (htc : b.tc = false) (hf : b.fifo = []) (hr : b.rem = 1) (hx : b.cfg = txnRdsr c) (hp : P d)
  | loaded (hen : b.en = true) (v : Byte) (hf : b.fifo = [v]) (hr : b.rem = 0) (hx : b.cfg = txnRdsr c) (hp : P d)
      (hq : statusBusy c v = false → Q d)

/-- The one byte of a status frame is in the FIFO. -/
structure StatusLoaded (c : Cfg) (P Q : Dev → Prop) (b : Bri) (d : Dev) : Prop where
  en : b.en = true
  fifo : ∃ v, b.fifo = [v] ∧ (statusBusy c v = false → Q d)
  rem : b.rem = 0
  cfg : b.cfg = txnRdsr c
  dev : P d

section Status

variable {c : Cfg} {hs : HostSide} {P Q : Dev → Prop} {s : State}

theorem deliver_rdsr {u : State} (hc : u.cfg = c) : deliver (frameOf (txnRdsr c) []) u = .ok () (openAnswer .status u) := by
  rw [deliver, hc, decodeFrame_rdsr rfl]
  rfl

theorem takeByte_status {u : State} (h : u.dev.answer = .status) : takeByte u = u.withBri
    { u.bri with fifo := u.bri.fifo ++ [statusByte u.cfg u.dev], rem := u.bri.rem - 1, tc := u.bri.tc || u.bri.rem - 1 == 0 } := by
  rw [takeByte, supplyByte_status h]

theorem statusSent_steady (hw : c.wf = true) (hP : DevPhase c P) (hQ : DevPhase c Q)
    (hPQ : ∀ d, P d → d.busy = false → Q d) : Steady c (StatusSent c P Q) := by
  refine steady_of (fun s t hc h hen hb e => ?_) fun s hc h => ?_
  · cases h with
    | loaded _ v hf hr hx hp hq =>
      rw [controllerStep_read hen hb (by rw [hx]; rfl), readFrameStep, if_pos hr, if_neg (by rw [hf]; nofun)] at e
      cases e
      exact .loaded hen v hf hr hx hp hq
    | unread _ htc hf hr hx hp =>
      rw [controllerStep_read hen hb (by rw [hx]; rfl), readFrameStep, if_neg (by rw [hr]; nofun)] at e
      split at e
      · rw [openReadFrame, if_pos (by rw [hr, hx]; rfl), hx, deliver_rdsr hc, Res.bind_ok] at e
        rw [takeByte_status rfl] at e
        cases e
        have hp' := hP.polled _ hp
        refine .loaded hen (statusByte s.cfg (openAnswer .status s).dev) ?_ ?_ hx hp' fun hidle => ?_
        · simp [openAnswer, hf]
        · simp [openAnswer, hr]
        · rw [hc, statusBusy_statusByte hw] at hidle
          exact hPQ _ hp' hidle
      · cases e
        exact .unread hen htc hf hr hx hp
  · cases h with
    | unread hen htc hf hr hx hp => exact .unread hen htc hf hr hx (hP.ends s hc hp)
    | loaded hen v hf hr hx hp hq => exact .loaded hen v hf hr hx (hP.ends s hc hp) fun h => hQ.ends s hc (hq h)

theorem statusLoaded_steady (hP : DevPhase c P) (hQ : DevPhase c Q) : Steady c (StatusLoaded c P Q) := by
  refine steady_of (fun s t hc h hen hb e => ?_) fun s hc h => ?_
  · obtain ⟨v, hf, hq⟩ := h.fifo
    rw [controllerStep_read hen hb (by rw [h.cfg]; rfl), readFrameStep, if_pos h.rem, if_neg (by rw [hf]; nofun)] at e
    cases e
    exact h
  · obtain ⟨v, hf, hq⟩ := h.fifo
    exact ⟨h.en, ⟨v, hf, fun h => hQ.ends s hc (hq h)⟩, h.rem, h.cfg, hP.ends s hc h.dev⟩

/-- What a status byte says: settled in `P`, and in `Q` if it shows the device not busy. -/
def Polled (c : Cfg) (P Q : Dev → Prop) (v : Byte) (b : Bri) (d : Dev) : Prop :=
  Settled P b d ∧ (statusBusy c v = false → Settled Q b d)

theorem polled_steady (hP : DevPhase c P) (hQ : DevPhase c Q) (v : Byte) : Steady c (Polled c P Q v) :=
  (settled_steady hP.toDevSteady).and (settled_steady hQ.toDevSteady).imp

theorem readByte_gives (hP : DevPhase c P) (hQ : DevPhase c Q)
    (h : RefAt c hs (fun b d => StatusLoaded c P Q b d ∧ b.tc = false) s) :
    (briReadByte 4 s).Gives fun v t => RefAt c hs (Polled c P Q v) t := by
  refine briReadByte_gives (polled_steady hP hQ) (fun b d v rest hb hf => ?_) h
  obtain ⟨hload, htc⟩ := hb
  obtain ⟨w, hw, hq⟩ := hload.fifo
  rw [hf] at hw
  cases hw
  have hdir : b.cfg.direction = .read := by rw [hload.cfg]; rfl
  exact ⟨⟨hload.en, htc, rfl, fun _ => ⟨hload.rem, hdir⟩, hload.dev⟩,
    fun hb => ⟨hload.en, htc, rfl, fun _ => ⟨hload.rem, hdir⟩, hq hb⟩⟩

variable (hw : c.wf = true) (hP : DevPhase c P)
include hw hP

/-- READ_STATUS that ends `Ok` has the status byte of the moment of transfer (rules R121, R191). -/
theorem readStatus_gives (hQ : DevPhase c Q) (hPQ : ∀ d, P d → d.busy = false → Q d) (h : RefAt c hs (Settled P) s) :
    (readStatus s).Gives fun v t => RefAt c hs (Polled c P Q v) t := by
  have hsteady := statusSent_steady hw hP hQ hPQ
  have hloaded := statusLoaded_steady hP hQ
  have htcloaded : Steady c fun b d => StatusLoaded c P Q b d ∧ b.tc = false := by
    refine steady_of (fun s t hc h hen hb e => ?_) fun s hc h => ?_
    · obtain ⟨v, hf, _⟩ := h.1.fifo
      have e' := e
      rw [controllerStep_read hen hb (by rw [h.1.cfg]; rfl), readFrameStep, if_pos h.1.rem, if_neg (by rw [hf]; nofun)] at e'
      cases e'
      exact h
    · obtain ⟨v, hf, hq⟩ := h.1.fifo
      exact ⟨⟨h.1.en, ⟨v, hf, fun h => hQ.ends s hc (hq h)⟩, h.1.rem, h.1.cfg, hP.ends s hc h.1.dev⟩, h.2⟩
  rw [readStatus, h.cfg]
  have hsent : ∀ b d, Sent (txnRdsr c) P b d → StatusSent c P Q b d :=
    fun _ _ h => .unread h.en h.tc h.fifo h.rem h.cfg h.dev
  refine (issue_gives hP.toDevSteady hsteady hsent h).bind fun _ t ht => ?_
  refine (callWaitOr_gives hsteady hloaded (fun b d hb hf => ?_) ht).bind fun _ u hu => ?_
  · have htc : b.tc = true := by simpa [flagsMet, someFlag, maskTc, controllerFlags] using hf
    cases hb with
    | unread _ htc' => rw [htc] at htc'; cases htc'
    | loaded hen v hf hr hx hp hq => exact ⟨hen, ⟨v, hf, hq⟩, hr, hx, hp⟩
  · refine (briClearTc_gives htcloaded (fun b d h => ⟨⟨h.en, h.fifo, h.rem, h.cfg, h.dev⟩, rfl⟩) hu).bind fun _ v hv => ?_
    exact (readByte_gives hP hQ hv).bind fun w y hy => .ok (hy.withSeq _)

theorem callReadStatus_gives {ph : Nat} {code : Byte} (hQ : DevPhase c Q) (hPQ : ∀ d, P d → d.busy = false → Q d)
    (h : RefAt c hs (Settled P) s) :
    ((callReadStatus ph s).recode code).Gives fun v t => RefAt c hs (Polled c P Q v) t :=
  (call_gives h fun _ ht => readStatus_gives hw hP hQ hPQ ht).recode code

/-- The device wait that ends `Ok` saw the device not busy (rule R122). -/
theorem waitNotBusyLoop_gives (hQ : DevPhase c Q) (hPQ : ∀ d, P d → d.busy = false → Q d) : ∀ {n : Nat} {s : State},
    RefAt c hs (Settled P) s → (waitNotBusyLoop n s).Gives fun _ t => RefAt c hs (Settled Q) t
  | 0, _, _ => fun _ _ e => by cases e
  | n + 1, s, h => by
    refine (callReadStatus_gives hw hP hQ hPQ h).bind fun v t ht => ?_
    split
    · refine (tick_gives (settled_steady hP.toDevSteady) (ht.mono fun _ _ hb => hb.1)).bind fun _ u hu => ?_
      exact waitNotBusyLoop_gives hQ hPQ (hu.withSeq _)
    · next hb => exact .ok (ht.mono fun _ _ hp => hp.2 (by rw [ht.cfg] at hb; simpa using hb))

theorem callWaitNotBusy_gives {ph : Nat} {code : Byte} {n : Word} (hQ : DevPhase c Q) (hPQ : ∀ d, P d → d.busy = false → Q d)
    (h : RefAt c hs (Settled P) s) : (callWaitNotBusy ph code n s).Gives fun _ t => RefAt c hs (Settled Q) t :=
  ((call_gives (B' := fun _ => Settled Q) h fun _ ht => waitNotBusyLoop_gives hw hP hQ hPQ (ht.withSeq _)).recode code).bind
    fun _ _ ht => .ok ht

/-- The latch poll leaves the device in its phase. -/
theorem latchPoll_gives : ∀ {n : Nat} {s : State}, RefAt c hs (Settled P) s →
    (latchPoll n s).Gives fun _ t => RefAt c hs (Settled P) t
  | 0, _, _ => fun _ _ e => by cases e
  | n + 1, s, h => by
    refine (callReadStatus_gives hw hP hP (fun _ hp _ => hp) h).bind fun v t ht => ?_
    have ht' : RefAt c hs (Settled P) t := ht.mono fun _ _ hb => hb.1
    split
    · exact .ok ht'
    · exact (tick_gives (settled_steady hP.toDevSteady) ht').bind fun _ u hu => latchPoll_gives (hu.withSeq _)

end Status

/-! ### Write enable -/

section Enable

variable {c : Cfg} {hs : HostSide} {R R' : Mem → Prop} {s : State} (hw : c.wf = true)
include hw

theorem delivers_wren (R : Mem → Prop) : Delivers c (frameOf (commandTxn c.opWriteEnable none) []) (Rested R) (Latch R) := by
  intro u v hc hr e
  rw [deliver, hc, decodeFrame_wren hw rfl] at e
  have hexec : execWren u = .next (disarm (u.withDev { u.dev with wel := true })) := by simp [execWren, hr.busy]
  have e : Res.ofOutcome (execWren u) = .ok () v := e
  rw [hexec] at e
  cases e
  exact ⟨⟨hr.busy, hr.op, hr.mem⟩, rfl⟩

/-- WRITE_ENABLE that ends `Ok` at an idle device has set the latch (rule R132). -/
theorem callWriteEnable_gives (h : RefAt c hs (Settled (Rested R)) s) :
    (callWriteEnable s).Gives fun _ t => RefAt c hs (Settled (Latch R)) t := by
  refine Res.Gives.recode (call_gives (B' := fun _ => Settled (Latch R)) h fun t ht => ?_) 1
  rw [writeEnable, ht.cfg]
  refine (callSendCommand_gives (rested_phase c R).toDevSteady (latch_phase c R).toDevSteady (delivers_wren hw R) ht).bind
    fun _ u hu => ?_
  exact latchPoll_gives hw (latch_phase c R) (hu.withSeq _)

/-- The frames of an erase up to the end of its device wait, by a device that does `o` upon the erase frame. -/
theorem eraseToWait_gives {op : Cfg → Byte} {a : Option Addr24} {ms : Cfg → Nat} {o : DevOp}
    (hd : Delivers c (frameOf (commandTxn (op c) a) []) (Latch R) (Working o R R'))
    (ho : EndsWith c o R R')
    (h : RefAt c hs (Settled (Rested R)) s) : (eraseToWait op a ms s).Gives fun _ t => RefAt c hs (Settled (Rested R')) t := by
  refine (callWriteEnable_gives hw h).bind fun _ t ht => ?_
  rw [ht.cfg]
  refine (callSendCommand_gives (latch_phase c R).toDevSteady (working_phase ho).toDevSteady hd ht).bind fun _ u hu => ?_
  exact callWaitNotBusy_gives hw (working_phase ho) (rested_phase c R') (fun _ h hb => h.rested hb) hu

end Enable

/-! ### ERASE and CHIP_ERASE -/

/-- Where the range a variant erases at an address starts. -/
def eraseLo (c : Cfg) (v : BlockSize) (a : Addr24) : Nat := if v = .all then 0 else blockStart (variantSize c v) a

/-- The array after the erase of a variant at an address. -/
def variantErased (c : Cfg) (v : BlockSize) (a : Addr24) (m : Mem) : Mem :=
  memErase m (eraseLo c v a) (eraseLo c v a + variantSize c v)

section Erase

variable {c : Cfg} {hs : HostSide} {R R' : Mem → Prop} {s : State} (hw : c.wf = true)

/-- An erase frame that is accepted, or ignored, by an idle device with the latch is accepted. -/
theorem eraseFrame_working {u v : State} {lo hi : Nat} (hr : Latch R u.dev)
    (e : Res.ofOutcome (eraseFrame lo hi u) = .ok () v) : Working (.erase lo hi) R R' v.dev := by
  unfold eraseFrame at e
  rw [if_neg (by simp [hr.busy, hr.wel])] at e
  split at e
  · cases e
    exact .busy rfl rfl hr.mem
  · cases e

include hw

/-- The device erases the variant's range upon its erase frame. -/
theorem delivers_erase (v : BlockSize) (a : Addr24) : Delivers c (frameOf (eraseTxn c v a) []) (Latch R)
    (Working (.erase (eraseLo c v a) (eraseLo c v a + variantSize c v)) R R') := by
  intro u w hc hr e
  rw [deliver, hc] at e
  cases v with
  | b4K =>
    rw [decodeFrame_se4k hw rfl] at e
    have e : Res.ofOutcome (execSe4k a u) = .ok () w := e
    rw [execSe4k, hc] at e
    exact eraseFrame_working hr e
  | b32K =>
    rw [decodeFrame_be32k hw rfl] at e
    have e : Res.ofOutcome (execBe32k a u) = .ok () w := e
    rw [execBe32k, hc] at e
    exact eraseFrame_working hr e
  | b64K =>
    rw [decodeFrame_be64k hw rfl] at e
    have e : Res.ofOutcome (execBe64k a u) = .ok () w := e
    rw [execBe64k, hc] at e
    exact eraseFrame_working hr e
  | all =>
    rw [decodeFrame_ce hw rfl] at e
    have e : Res.ofOutcome (execCe u) = .ok () w := e
    rw [execCe, hc] at e
    rw [eraseLo, if_pos rfl, Nat.zero_add]
    exact eraseFrame_working hr e

/-- ERASE that ends `Ok` at an idle device has erased the variant's range (rules R161, R162, R202). -/
theorem erase_gives {addr : Word} {v : BlockSize} {m : Mem} (h : RefAt c hs (Settled (Rested (· = m))) s) :
    (erase addr v s).Gives fun _ t => RefAt c hs (Settled (Rested (· = variantErased c v (trunc24 addr) m))) t := by
  have ho : EndsWith c (.erase (eraseLo c v (trunc24 addr)) (eraseLo c v (trunc24 addr) + variantSize c v)) (· = m)
      (· = variantErased c v (trunc24 addr) m) := fun s _ hb hop hm => by
    rw [deviceEnd_mem hb, applyOp_erase hop, hm]
    rfl
  have hframe := delivers_erase hw v (trunc24 addr) (R := (· = m)) (R' := (· = variantErased c v (trunc24 addr) m))
  have hsteady := settled_steady (rested_phase c (· = variantErased c v (trunc24 addr) m)).toDevSteady
  by_cases hv : v = .all
  · subst hv
    exact call_gives (B' := fun _ => Settled (Rested (· = variantErased c .all (trunc24 addr) m))) h fun t ht =>
      eraseToWait_gives (op := (variantOp · .all)) (a := none) (ms := (variantMs · .all)) hw hframe ho ht
  · obtain rfl := h.cfg
    rw [erase_eq addr hv]
    rw [eraseTxn_of_ne _ hv] at hframe
    refine (eraseToWait_gives (op := fun _ => variantOp s.cfg v) (a := some (trunc24 addr)) (ms := fun _ => variantMs s.cfg v)
      hw hframe ho h).bind fun _ t ht => ?_
    refine (callWaitOr_gives hsteady hsteady (fun _ _ hb _ => hb) ht).bind fun _ u hu => ?_
    exact briClearAll_gives hsteady (fun b d h => ⟨h.en, rfl, h.fifo, h.drained, h.dev⟩) hu

end Erase

end Sys2Proof.Machine
end

section
/-! ERASE and INIT_BUS that succeed under ENV-REF (rules R161, R162, R171, R195). -/

namespace Sys2Proof.Machine

/-! ### The ready environment -/

section Ready

variable {s t u : State} {p : Proc} {v : DWord} {P : Dev → Prop} {R : Mem → Prop}

/-- A ready environment holds the array it shows. -/
theorem RefReady.refAt (h : RefReady s) (p : Proc) :
    RefAt s.cfg s.host (Settled (Rested (· = s.dev.mem))) (enterProc p s) := by
  obtain ⟨hm, _, _, ⟨hen, htc, hfifo, hdrained⟩, ⟨hbusy, hop⟩, _, _⟩ := h
  exact ⟨rfl, hm, rfl, hen, htc, hfifo, hdrained, hbusy, hop, rfl⟩

/-- An operation that ended with the environment settled and the device idle leaves it ready. -/
theorem RefAt.refReady {c : Cfg} {hs : HostSide} (h : RefAt c hs (Settled (Rested R)) u) (hr : hs.resetAt = none)
    (hi : (complete 0 .none v u).seq.inited = true) (hw : c.wf = true) (hcap : c.capacity ≤ 2 ^ 24) :
    RefReady (complete 0 .none v u) := by
  obtain ⟨rfl, hm, rfl, ⟨hen, htc, hfifo, hdrained, hbusy, hop, _⟩⟩ := h
  exact ⟨hm, hr, hi, ⟨hen, htc, hfifo, hdrained⟩, ⟨hbusy, hop⟩, hw, hcap⟩

end Ready

/-- An address of the array fits the address of a frame. -/
theorem toNat_trunc24 {a : Word} (h : a.toNat < 2 ^ 24) : (trunc24 a).toNat = a.toNat := by
  rw [trunc24, BitVec.toNat_setWidth, Nat.mod_eq_of_lt h]

/-- Settles O59: the frames of ERASE take the device through the latch and the erase of the variant's range. -/
theorem refEraseErases : Obligations.RefEraseErases := by
  intro s t addr v hready hmem haddr lo hexec h0
  obtain ⟨hm, hr, _, _, _, hw, hcap⟩ := id hready
  have hinit := (hostOp_completed rfl hr hexec).2
  rw [exec_erase] at hexec
  obtain ⟨hi, hrun⟩ := gated_success hexec h0
  have hwithin := erase_within (F := fun _ => True) (L := eraseStages v) (s := enterProc .erase s) SameInited.keeps rfl addr v
    trivial trivial (fun _ => trivial) fun p hp => hp
  obtain ⟨_, u, hu, rfl⟩ := finish_success hwithin hr (by cases v <;> decide) hrun h0
  have hgives := erase_gives hw (hready.refAt .erase) hu
  have hlo : eraseLo s.cfg v (trunc24 addr) = lo := by
    rw [eraseLo, blockStart, toNat_trunc24 (haddr.trans_le hcap)]
  refine ⟨fun x => ?_, hgives.host, hgives.refReady hr (hinit.trans hi) hw hcap⟩
  have harray : (complete 0 .none 0 u).dev.mem = variantErased s.cfg v (trunc24 addr) s.dev.mem := hgives.at_.dev.mem
  rw [harray, variantErased, hlo, memRead_memErase]
  rfl

/-! ### INIT_BUS -/

/-- The device is armed for a reset. -/
def Armed (d : Dev) : Prop := d.armed = true

theorem armed_steady (c : Cfg) : DevSteady c Armed where
  ends s _ h := by
    cases hb : s.dev.busy with
    | true => rwa [Armed, deviceEnd_dev hb]
    | false => rwa [deviceEnd_idle hb]

/-- The array may hold anything. -/
abbrev AnyMem : Mem → Prop := fun _ => True

theorem resetting_phase (c : Cfg) : DevPhase c (Working .reset AnyMem AnyMem) := working_phase fun _ _ _ _ _ => trivial

section BringUp

variable {c : Cfg} {hs : HostSide} {s : State} (hw : c.wf = true)
include hw

theorem delivers_rsten : Delivers c (frameOf (commandTxn c.opResetEnable none) []) (fun _ => True) Armed := by
  intro u v hc _ e
  rw [deliver, hc, decodeFrame_rsten hw rfl] at e
  cases e
  rfl

theorem delivers_rst : Delivers c (frameOf (commandTxn c.opResetMemory none) []) Armed (Working .reset AnyMem AnyMem) := by
  intro u v hc harmed e
  rw [deliver, hc, decodeFrame_rst hw rfl] at e
  have e : Res.ofOutcome (execRst u) = .ok () v := e
  rw [execRst, if_pos (show u.dev.armed = true from harmed)] at e
  cases e
  exact .busy rfl rfl trivial

/-- RESET_MEMORY that ends `Ok` leaves an idle device (rule R133). -/
theorem resetMemory_gives (h : RefAt c hs (Settled fun _ => True) s) :
    (resetMemory s).Gives fun _ t => RefAt c hs (Settled (Rested AnyMem)) t := by
  rw [resetMemory, h.cfg]
  refine (callSendCommand_gives (DevSteady.any c) (armed_steady c) (delivers_rsten hw) h).bind fun _ t ht => ?_
  rw [ht.cfg]
  refine (callSendCommand_gives (armed_steady c) (resetting_phase c).toDevSteady (delivers_rst hw) ht).bind fun _ u hu => ?_
  exact callWaitNotBusy_gives hw (resetting_phase c) (rested_phase c AnyMem) (fun _ h hb => h.rested hb) hu

/-- INIT_BUS that ends `Ok` leaves an enabled, empty controller and an idle device, from any (rule R171). -/
theorem initBus_gives (h : RefAt c hs (fun _ _ => True) s) :
    (initBus s).Gives fun _ t => RefAt c hs (Settled (Rested AnyMem)) t := by
  have hany : Steady c fun _ _ => True := fun _ _ _ _ _ _ => trivial
  have hinit : (briInit 1 (initFields s.cfg) (setInited false s)).Gives fun _ t => RefAt c hs (fun _ _ => True) t :=
    seqStep_gives (B' := fun _ _ _ => True) (h.withSeq _)
      (fun _ _ hu => .ok ⟨hu.cfg, hu.model, hu.host, trivial⟩) fun _ => hany
  refine hinit.bind fun _ t ht => ?_
  have henable : (briEnable 2 t).Gives fun _ u => RefAt c hs (Settled fun _ => True) u :=
    seqStep_gives (B' := fun _ => Settled fun _ => True) ht
      (fun _ u hu => .ok ⟨hu.cfg, hu.model, hu.host, by
        show Settled _ (enabledController u.env.model u.bri) u.dev
        rw [hu.model]
        exact ⟨rfl, rfl, rfl, nofun, trivial⟩⟩) fun _ => settled_steady (DevSteady.any c)
  refine henable.bind fun _ u hu => ?_
  exact (call_gives (B' := fun _ => Settled (Rested AnyMem)) hu fun _ hv => resetMemory_gives hw hv).bind
    fun _ _ hv => .ok (hv.withSeq _)

end BringUp

/-- Settles O55: the enable empties the controller, the reset pair puts the device into its reset, and the device wait sees
it end. -/
theorem refInitBusReadies : Obligations.RefInitBusReadies := by
  intro s t hm hr hw hcap hexec h0
  have hinit := (hostOp_completed rfl hr hexec).2
  rw [exec_initBus] at hexec
  have hwithin := (initBus_within (F := fun _ => True) (L := resetResults) (s := enterProc .initBus s) rfl trivial trivial
    trivial fun p hp => hp).1
  obtain ⟨_, u, hu, rfl⟩ := finish_success hwithin hr (by decide) hexec h0
  have hstart : RefAt s.cfg s.host (fun _ _ => True) (enterProc .initBus s) := ⟨rfl, hm, rfl, trivial⟩
  exact (initBus_gives hw hstart hu).refReady hr (hinit.trans (decide_eq_true h0)) hw hcap

end Sys2Proof.Machine
end

section
/-! READ that succeeds under ENV-REF (rules R141, R196): the bytes it stores are the array's. -/

namespace Sys2Proof.Machine

/-- What an `Ok` end gives, and what it keeps of the registers. -/
theorem Res.Gives.keeps {α : Type} {r : Res α} {Φ : α → State → Prop} {n : Nat} {F : Txn → Prop} {L : List (Byte × Cause)}
    {K : Seq → Seq → Prop} {s : State} (h : r.Gives Φ) (hw : r.Within n F L K s) :
    r.Gives fun a t => Φ a t ∧ K s.seq t.seq := fun _ _ e => ⟨h e, (hw.keeps e).2⟩

theorem Res.Gives.and {α : Type} {r : Res α} {Φ Ψ : α → State → Prop} (h : r.Gives Φ) (h' : r.Gives Ψ) :
    r.Gives fun a t => Φ a t ∧ Ψ a t := fun _ _ e => ⟨h e, h' e⟩

/-! ### The read frame -/

/-- A read frame of `len` bytes at `a` of which SEQ has popped `k`: the FIFO holds the next ones, and the device answers with
the one after them. -/
structure Reading (c : Cfg) (m : Mem) (a : Addr24) (len : Word) (k : Nat) (b : Bri) (d : Dev) : Prop where
  en : b.en = true
  cfg : b.cfg = txnQread c a len
  dev : Rested (· = m) d
  tc : b.tc = (b.rem == 0)
  count : b.rem + b.fifo.length + k = len.toNat
  fifo : b.fifo = (List.range' k b.fifo.length).map fun i => memRead m (a.toNat + i)
  ended : b.busy = false → b.rem = 0 ∧ b.fifo = []
  answer : b.rem < len.toNat → d.answer = .array (wrapAddress c (a.toNat + k + b.fifo.length))

section Read

variable {c : Cfg} {hs : HostSide} {m : Mem} {a : Addr24} {len : Word} {s : State}

theorem takeByte_array {u : State} {x : Nat} (h : u.dev.answer = .array x) : takeByte u =
    (u.withDev { u.dev with answer := .array (wrapAddress u.cfg (x + 1)) }).withBri { u.bri with
      fifo := u.bri.fifo ++ [memRead u.dev.mem x], rem := u.bri.rem - 1, tc := u.bri.tc || u.bri.rem - 1 == 0 } := by
  rw [takeByte, supplyByte_array h]
  rfl

theorem deliver_qread {u : State} (hw : c.wf = true) (hlen : len ≠ 0) (hc : u.cfg = c) (hb : u.dev.busy = false) :
    deliver (frameOf (txnQread c a len) []) u = .ok () (openAnswer (.array (wrapAddress c a.toNat)) u) := by
  rw [deliver, hc, decodeFrame_qread hw rfl, shapeQread_txnQread c a hlen]
  show Res.ofOutcome (exec (.qread a len) u) = _
  rw [exec_qread hlen, hb, hc]
  rfl

/-- A byte goes from the device into the FIFO. -/
theorem Reading.takeByte {k : Nat} (hfit : a.toNat + len.toNat ≤ c.capacity) (hc : s.cfg = c)
    (h : Reading c m a len k s.bri s.dev) (hr : s.bri.rem ≠ 0)
    (ha : s.dev.answer = .array (wrapAddress c (a.toNat + k + s.bri.fifo.length))) :
    Reading c m a len k (takeByte s).bri (takeByte s).dev := by
  have hcount := h.count
  rw [wrapAddress_of_lt (by omega)] at ha
  rw [takeByte_array ha]
  have hlen : (s.bri.fifo ++ [memRead s.dev.mem (a.toNat + k + s.bri.fifo.length)]).length = s.bri.fifo.length + 1 := by simp
  refine ⟨h.en, h.cfg, ⟨h.dev.busy, h.dev.op, h.dev.mem⟩, ?_, ?_, ?_, fun hb => absurd (h.ended hb).1 hr, fun _ => ?_⟩
  · show (s.bri.tc || s.bri.rem - 1 == 0) = (s.bri.rem - 1 == 0)
    rw [h.tc, beq_eq_false_iff_ne.mpr hr, Bool.false_or]
  · show s.bri.rem - 1 + (s.bri.fifo ++ [_]).length + k = len.toNat
    rw [hlen]
    omega
  · show s.bri.fifo ++ [_] = (List.range' k (s.bri.fifo ++ [_]).length).map _
    rw [hlen, List.range'_1_concat, List.map_append, ← h.fifo, h.dev.mem, Nat.add_assoc]
    rfl
  · show Answer.array (wrapAddress s.cfg (_ + 1)) = .array (wrapAddress c (a.toNat + k + (s.bri.fifo ++ [_]).length))
    rw [hlen, hc, Nat.add_assoc _ _ 1]

theorem reading_steady (hw : c.wf = true) (hlen : len ≠ 0) (hfit : a.toNat + len.toNat ≤ c.capacity) (k : Nat) :
    Steady c (Reading c m a len k) := by
  refine steady_of (fun s t hc h hen hb e => ?_) fun s hc h => by rwa [deviceEnd_idle h.dev.busy]
  rw [controllerStep_read hen hb (by rw [h.cfg]; rfl), readFrameStep] at e
  split at e
  · next hr =>
    cases e
    split
    · next hf => exact ⟨h.en, h.cfg, h.dev, h.tc, h.count, h.fifo, fun _ => ⟨hr, hf⟩, h.answer⟩
    · exact h
  · next hr =>
    split at e
    · obtain ⟨_, u, hu, hk⟩ := Res.bind_eq_ok.mp e
      cases hk
      rw [openReadFrame] at hu
      have hcount := h.count
      split at hu
      · next hfirst =>
        have hrem : s.bri.rem = len.toNat := by rw [hfirst, h.cfg]; rfl
        rw [h.cfg, deliver_qread hw hlen hc h.dev.busy] at hu
        cases hu
        refine Reading.takeByte hfit hc ⟨h.en, h.cfg, ⟨h.dev.busy, h.dev.op, h.dev.mem⟩, h.tc, h.count, h.fifo, h.ended,
          fun hlt => absurd hlt (by simp [openAnswer, hrem])⟩ hr ?_
        have h0 : a.toNat + k + s.bri.fifo.length = a.toNat := by omega
        show Answer.array _ = .array (wrapAddress c (a.toNat + k + s.bri.fifo.length))
        rw [h0]
      · next hlater =>
        cases hu
        have hrem : s.bri.rem ≠ len.toNat := fun hr => hlater (by rw [hr, h.cfg]; rfl)
        exact h.takeByte hfit hc hr (h.answer (by omega))
    · cases e
      exact h

/-- SEQ pops a byte, which is the array's. -/
theorem briReadByte_reads {ph k : Nat} (hw : c.wf = true) (hlen : len ≠ 0) (hfit : a.toNat + len.toNat ≤ c.capacity)
    (h : RefAt c hs (Reading c m a len k) s) : (briReadByte ph s).Gives fun v t =>
      RefAt c hs (fun b d => v = memRead m (a.toNat + k) ∧ Reading c m a len (k + 1) b d) t := by
  have hsteady : ∀ v, Steady c fun b d => v = memRead m (a.toNat + k) ∧ Reading c m a len (k + 1) b d := fun v =>
    Steady.and (fun _ _ _ _ hv _ => hv) (reading_steady hw hlen hfit (k + 1))
  refine briReadByte_gives hsteady (fun b d v rest hr hf => ?_) h
  have hl : b.fifo.length = rest.length + 1 := congrArg List.length hf
  have hfifo := hr.fifo
  rw [hl, List.range'_succ, hf, List.map_cons] at hfifo
  obtain ⟨hv, hrest⟩ := List.cons_eq_cons.mp hfifo
  have hcount := hr.count
  have hrem : b.busy = false → b.rem = 0 ∧ rest = [] := fun hb => by
    have := (hr.ended hb).2
    rw [hf] at this
    cases this
  refine ⟨hv, hr.en, hr.cfg, hr.dev, hr.tc, ?_, hrest, hrem, fun hlt => ?_⟩
  · show b.rem + rest.length + (k + 1) = len.toNat
    omega
  · rw [hr.answer hlt]
    have hnext : a.toNat + k + b.fifo.length = a.toNat + (k + 1) + rest.length := by omega
    exact congrArg (fun x => Answer.array (wrapAddress c x)) hnext

end Read

/-! ### The bytes stored -/

/-- The host after `k` bytes of a read at `a`, with its reset as `r` says. -/
structure Stored (m : Mem) (a : Nat) (r : Option Nat) (k : Nat) (hs : HostSide) : Prop where
  resetAt : hs.resetAt = r
  wf : Mem.wf hs.hbuf = true
  byte : ∀ i, i < k → memRead hs.hbuf i = memRead m (a + i)

theorem Stored.store {m : Mem} {a k : Nat} {r : Option Nat} {hs : HostSide} (h : Stored m a r k hs) :
    Stored m a r (k + 1) { hs with hbuf := memWrite hs.hbuf k (memRead m (a + k)) } :=
  ⟨h.resetAt, memWrite_wf _ _ h.wf, fun i hi => by
    rw [memRead_memWrite _ _ _ h.wf]
    split
    · next e => rw [e]
    · exact h.byte i (by omega)⟩

section Loop

variable {c : Cfg} {m : Mem} {a : Addr24} {len : Word} {r : Option Nat} (hw : c.wf = true) (hlen : len ≠ 0)
  (hfit : a.toNat + len.toNat ≤ c.capacity)
include hw hlen hfit

theorem readOneByte_gives {hs : HostSide} {s : State} {k : Nat} (h : RefAt c hs (Reading c m a len k) s)
    (hstored : Stored m a.toNat r k hs) (hidx : s.seq.idx.toNat = k) : (readOneByte s).Gives fun _ t =>
      (∃ hs', RefAt c hs' (Reading c m a len (k + 1)) t ∧ Stored m a.toNat r (k + 1) hs') ∧ t.seq.idx = s.seq.idx + 1 := by
  have hstep := (briReadByte_reads (ph := 5) hw hlen hfit h).keeps
    (briReadByte_within (F := fun _ => True) (L := []) SameIdx.keeps 5)
  refine hstep.bind fun v t ht => .ok ?_
  obtain ⟨⟨hc, hm, hhost, hv, hread⟩, hk⟩ := ht
  have hk : t.seq.idx = s.seq.idx := hk
  refine ⟨⟨_, ⟨hc, hm, rfl, hread⟩, ?_⟩, congrArg (· + 1) hk⟩
  show Stored m a.toNat r (k + 1) { t.host with hbuf := memWrite t.host.hbuf t.seq.idx.toNat v }
  rw [hk, hidx, hv, hhost]
  exact hstored.store

theorem readBytes_gives : ∀ {n k : Nat} {hs : HostSide} {s : State}, RefAt c hs (Reading c m a len k) s →
    Stored m a.toNat r k hs → s.seq.idx.toNat = k → k + n = len.toNat → (readBytes n s).Gives fun _ t =>
      ∃ hs', RefAt c hs' (Reading c m a len len.toNat) t ∧ Stored m a.toNat r len.toNat hs'
  | 0, k, hs, s, h, hstored, _, hn => by
    obtain rfl : k = len.toNat := hn
    exact .ok ⟨hs, h, hstored⟩
  | n + 1, k, hs, s, h, hstored, hidx, hn => by
    have hsteady := reading_steady (m := m) hw hlen hfit k
    refine ((callWaitOr_gives (ph := 4) (mask := maskFtTc) (e := true) (code := 2) hsteady hsteady (fun _ _ h _ => h) h).keeps
      (callWaitOr_within (F := fun _ => True) (L := [(2, .busTimeout)]) SameIdx.keeps rfl 4 maskFtTc true
        (by simp))).bind fun _ t ht => ?_
    obtain ⟨hread, hk⟩ := ht
    have hk : t.seq.idx = s.seq.idx := hk
    refine (readOneByte_gives hw hlen hfit hread hstored (hk ▸ hidx)).bind fun _ u hu => ?_
    obtain ⟨⟨hs', hread', hstored'⟩, hk'⟩ := hu
    refine readBytes_gives hread' hstored' ?_ (by omega)
    have hlt := len.isLt
    rw [hk', hk, BitVec.toNat_add, hidx]
    exact Nat.mod_eq_of_lt (by simp; omega)

end Loop

/-- READ that ends `Ok` has stored the array's bytes (rule R141). -/
theorem read_gives {c : Cfg} {m : Mem} {addr len : Word} {hs : HostSide} {s : State} (hw : c.wf = true)
    (hfit : (trunc24 addr).toNat + len.toNat ≤ c.capacity) (h : RefAt c hs (Settled (Rested (· = m))) s)
    (hbuf : Mem.wf hs.hbuf = true) : (read addr len s).Gives fun _ t =>
      ∃ hs', RefAt c hs' (Settled (Rested (· = m))) t ∧ Stored m (trunc24 addr).toNat hs.resetAt len.toNat hs' := by
  unfold read
  split
  · next h0 =>
    subst h0
    exact .ok ⟨hs, h, rfl, hbuf, nofun⟩
  next hlen =>
  have hpos := toNat_pos_of_ne_zero hlen
  have hsteady := fun k => reading_steady (m := m) hw hlen hfit k
  have hend := settled_steady (rested_phase c (· = m)).toDevSteady
  rw [h.cfg]
  have hsent : ∀ b d, Sent (txnQread c (trunc24 addr) len) (Rested (· = m)) b d → Reading c m (trunc24 addr) len 0 b d := by
    intro b d hx
    have hrem : b.rem = len.toNat := hx.rem
    exact ⟨hx.en, hx.cfg, hx.dev, by rw [hx.tc, hrem]; exact (beq_eq_false_iff_ne.mpr hpos.ne').symm,
      by rw [hx.fifo, hrem]; rfl, by rw [hx.fifo]; rfl, fun hb => absurd (hx.busy.symm.trans hb) nofun,
      fun hlt => absurd hrem hlt.ne⟩
  refine (issue_gives (rested_phase c _).toDevSteady (hsteady 0) hsent h).bind fun _ t ht => ?_
  refine (readBytes_gives (r := hs.resetAt) hw hlen hfit (ht.withSeq { t.seq with idx := 0 }) ⟨rfl, hbuf, nofun⟩ rfl
    (Nat.zero_add _)).bind fun _ u hu => ?_
  obtain ⟨hs', hread, hstored⟩ := hu
  have hdone := hsteady len.toNat
  refine (callWaitOr_gives hdone hdone (fun _ _ h _ => h) hread).bind fun _ v hv => ?_
  refine (briClearTc_gives hend (fun b d hb => ?_) hv).mono fun _ _ hx => ⟨hs', hx, hstored⟩
  have hcount := hb.count
  have hfifo : b.fifo = [] := List.eq_nil_of_length_eq_zero (by omega)
  exact ⟨hb.en, rfl, hfifo, fun _ => ⟨by show b.rem = 0; omega, by
    show b.cfg.direction = .read
    rw [hb.cfg]
    rfl⟩, hb.dev⟩

/-- Settles O56: the byte popped `i`-th is the array's byte at the address plus `i`. -/
theorem refReadReturnsTheArray : Obligations.RefReadReturnsTheArray := by
  intro s t addr len hready hbuf hfit hexec h0
  obtain ⟨hm, hr, _, _, _, hw, hcap⟩ := id hready
  have hinit := (hostOp_completed rfl hr hexec).2
  rw [exec_read] at hexec
  obtain ⟨hi, hrun⟩ := gated_success hexec h0
  have hwithin := read_within (F := fun _ => True) (L := [((1 : Byte), Cause.busTimeout), (2, .busTimeout), (3, .busTimeout)])
    (s := enterProc .read s) SameInited.keeps rfl (fun _ _ => rfl) addr len (fun _ => trivial) fun p hp => hp
  obtain ⟨_, u, hu, rfl⟩ := finish_success hwithin hr (by decide) hrun h0
  have hle : (trunc24 addr).toNat ≤ addr.toNat := (BitVec.toNat_setWidth 24 addr).trans_le (Nat.mod_le _ _)
  obtain ⟨hs', hend, hstored⟩ := read_gives hw (show (trunc24 addr).toNat + len.toNat ≤ s.cfg.capacity by omega)
    (hready.refAt .read) hbuf hu
  refine ⟨fun i hi => ?_, hend.at_.dev.mem, hend.refReady (hstored.resetAt.trans hr) (hinit.trans hi) hw hcap⟩
  show memRead u.host.hbuf i = _
  rw [hend.host, hstored.byte i hi, toNat_trunc24 (by omega)]

end Sys2Proof.Machine
end

section
/-! WRITE that succeeds under ENV-REF (rules R151, R197), and a WRITE followed by a READ (rule R73): the range written holds
the buffer's bytes. -/

namespace Sys2Proof.Machine

/-! ### The array while a write goes on -/

/-- The array after the first `w` bytes of the buffer are programmed from address `a` on. -/
structure Programmed (m0 buf : Mem) (a w : Nat) (m : Mem) : Prop where
  wf : Mem.wf m = true
  byte : ∀ x, memRead m x = if a ≤ x ∧ x < a + w then memRead buf (x - a) else memRead m0 x

/-- The end of a program of the next `k` bytes, in one page and on erased bytes. -/
theorem Programmed.ends {m0 buf : Mem} {a w k : Nat} {s : State} (h : Programmed m0 buf a w s.dev.mem)
    (hb : s.dev.busy = true) (hop : s.dev.op = .program (a + w) (bufferBytes buf w k))
    (hpage : (a + w) % s.cfg.pageSize + k ≤ s.cfg.pageSize)
    (herased : ∀ i, w ≤ i → i < w + k → memRead m0 (a + i) = 0xFF) :
    Programmed m0 buf a (w + k) (deviceEnd s).dev.mem := by
  have hlen : (bufferBytes buf w k).length = k := by simp [bufferBytes]
  refine ⟨?_, fun x => ?_⟩
  · rw [deviceEnd_mem hb, applyOp_program hop]
    exact memProgram_wf _ _ h.wf
  · by_cases hx : a + w ≤ x ∧ x < a + w + k
    · obtain ⟨i, rfl⟩ : ∃ i, x = a + w + i := ⟨x - (a + w), by omega⟩
      have hi : i < k := by omega
      have hold : memRead s.dev.mem (a + w + i) = 0xFF := by
        rw [h.byte, if_neg (by omega), Nat.add_assoc]
        exact herased (w + i) (by omega) (by omega)
      rw [memRead_deviceEnd_program_named hb hop h.wf (by omega) (by rwa [hlen]) (programTarget_in_page hpage hi) hold,
        if_pos (by omega)]
      simp only [bufferBytes, List.getElem_map, List.getElem_range', Nat.one_mul]
      congr 1
      omega
    · rw [memRead_deviceEnd_program_other hb hop h.wf fun hmem => ?_, h.byte]
      · have hiff : (a ≤ x ∧ x < a + w) ↔ (a ≤ x ∧ x < a + (w + k)) := by omega
        simp only [hiff]
      · obtain ⟨i, hi, rfl⟩ := mem_programTargets.mp hmem
        rw [hlen] at hi
        rw [programTarget_in_page hpage hi] at hx
        omega

/-! ### The program frame -/

/-- A program frame of the bytes `bs` at `a` of which SEQ has supplied `k`: those sent and those in the FIFO, until the frame
is complete and the device programs. -/
inductive Filling (c : Cfg) (x : Txn) (a : Nat) (bs : List Byte) (R R' : Mem → Prop) (k : Nat) (b : Bri) (d : Dev) : Prop
  | pending (hen : b.en = true) (htc : b.tc = false) (hx : b.cfg = x) (hd : Latch R d) (hsent : b.out ++ b.fifo = bs.take k)
      (hcount : b.out.length + b.rem = bs.length) (hrem : b.rem ≠ 0)
  | finished (hen : b.en = true) (hb : b.busy = false) (hf : b.fifo = []) (hk : k = bs.length)
      (hd : Working (.program a bs) R R' d)

section Frame

variable {c : Cfg} {hs : HostSide} {a : Addr24} {size : Word} {bs : List Byte} {R R' : Mem → Prop} {s : State} {k : Nat}

/-- The device programs upon its program frame. -/
theorem deliver_qpp (hw : c.wf = true) (hbs : bs ≠ []) {u v : State} (hc : u.cfg = c) (hr : Latch R u.dev)
    (e : deliver (frameOf (txnQpp c a size) bs) u = .ok () v) : Working (.program a.toNat bs) R R' v.dev := by
  rw [deliver, hc, decodeFrame_qpp hw rfl, shapeQpp_txnQpp a size (Cfg.wf_progAddrLines hw) hbs] at e
  have e : Res.ofOutcome (execQpp a bs u) = .ok () v := e
  rw [execQpp, if_neg hbs, if_neg (by simp [hr.busy, hr.wel])] at e
  split at e
  · cases e
    exact .busy rfl rfl hr.mem
  · cases e

theorem writeFrameStep_empty {u : State} (h : u.bri.fifo = []) : writeFrameStep u = .ok () u := by
  rw [writeFrameStep, h]

/-- The controller after a byte of a write frame has gone from the FIFO to the bus. -/
def sentByte (v : Byte) (rest : List Byte) (u : State) : State :=
  u.withBri { u.bri with fifo := rest, out := u.bri.out ++ [v], rem := u.bri.rem - 1 }

theorem writeFrameStep_more {u : State} {v : Byte} {rest : List Byte} (h : u.bri.fifo = v :: rest) (hr : u.bri.rem - 1 ≠ 0) :
    writeFrameStep u = .ok () (sentByte v rest u) := by
  have hr0 : u.bri.rem ≠ 0 := by omega
  rw [writeFrameStep, h]
  exact (if_neg hr0).trans (if_neg hr)

theorem writeFrameStep_last {u : State} {v : Byte} {rest : List Byte} (h : u.bri.fifo = v :: rest) (hr : u.bri.rem = 1) :
    writeFrameStep u = (deliver (frameOf u.bri.cfg (u.bri.out ++ [v])) (sentByte v rest u)).bind fun _ w =>
      .ok () (w.withBri { w.bri with tc := true, busy := false }) := by
  have hr0 : u.bri.rem ≠ 0 := by omega
  have hr1 : (sentByte v rest u).bri.rem = 0 := by simp [sentByte, hr]
  rw [writeFrameStep, h]
  exact (if_neg hr0).trans (if_pos hr1)

theorem filling_steady (hw : c.wf = true) (hbs : bs ≠ []) (hk : k ≤ bs.length)
    (ho : EndsWith c (.program a.toNat bs) R R') : Steady c (Filling c (txnQpp c a size) a.toNat bs R R' k) := by
  refine steady_of (fun s t hc h hen hb e => ?_) fun s hc h => ?_
  · cases h with
    | finished _ hb' => rw [hb] at hb'; cases hb'
    | pending _ htc hx hd hsent hcount hrem =>
      rw [controllerStep_write hen hb (by rw [hx]; rfl)] at e
      cases hf : s.bri.fifo with
      | nil =>
        rw [writeFrameStep_empty hf] at e
        cases e
        exact .pending hen htc hx hd hsent hcount hrem
      | cons v rest =>
        have hsent' : s.bri.out ++ [v] ++ rest = bs.take k := by rw [← hsent, hf, List.append_assoc]; rfl
        by_cases hlast : s.bri.rem = 1
        · have hlen := congrArg List.length hsent'
          simp only [List.length_append, List.length_singleton, List.length_take] at hlen
          obtain rfl : rest = [] := List.eq_nil_of_length_eq_zero (by omega)
          have hkm : k = bs.length := by omega
          rw [List.append_nil, hkm, List.take_length] at hsent'
          rw [writeFrameStep_last hf hlast, hx, hsent'] at e
          obtain ⟨_, u, hu, ht⟩ := Res.bind_eq_ok.mp e
          cases ht
          have hbri := deliver_bri hu
          have hwork : Working (.program a.toNat bs) R R' u.dev := deliver_qpp (u := sentByte v [] s) hw hbs hc hd hu
          exact .finished ((congrArg Bri.en hbri).trans hen) rfl (congrArg Bri.fifo hbri) hkm hwork
        · have hmore : s.bri.rem - 1 ≠ 0 := by omega
          rw [writeFrameStep_more hf hmore] at e
          cases e
          refine .pending hen htc hx hd hsent' ?_ hmore
          show (s.bri.out ++ [v]).length + (s.bri.rem - 1) = bs.length
          rw [List.length_append, List.length_singleton]
          omega
  · cases h with
    | pending hen htc hx hd hsent hcount hrem => exact .pending hen htc hx ((latch_phase c R).ends s hc hd) hsent hcount hrem
    | finished hen hb hf hk hd => exact .finished hen hb hf hk ((working_phase ho).ends s hc hd)

/-- SEQ supplies the next byte. -/
theorem briWriteByte_fills {ph : Nat} (hw : c.wf = true) (hk : k < bs.length)
    (ho : EndsWith c (.program a.toNat bs) R R')
    (h : RefAt c hs (Filling c (txnQpp c a size) a.toNat bs R R' k) s) : (briWriteByte ph bs[k] s).Gives fun _ t =>
      RefAt c hs (Filling c (txnQpp c a size) a.toNat bs R R' (k + 1)) t := by
  have hbs : bs ≠ [] := List.ne_nil_of_length_pos (by omega)
  refine briWriteByte_gives (filling_steady hw hbs hk ho) (fun b d hf => ?_) h
  cases hf with
  | finished _ _ _ hk' => omega
  | pending hen htc hx hd hsent hcount hrem =>
    refine .pending hen htc hx hd ?_ hcount hrem
    rw [List.take_succ_eq_append_getElem hk, ← hsent, List.append_assoc]

end Frame

/-! ### The byte loop -/

/-- The registers that select the next byte of the buffer are as before. -/
def SameSource (q q' : Seq) : Prop := q'.bufOff = q.bufOff ∧ q'.idx = q.idx

theorem SameSource.keeps : Keeps SameSource :=
  ⟨fun _ => ⟨rfl, rfl⟩, fun _ _ _ h k => ⟨k.1.trans h.1, k.2.trans h.2⟩, fun _ _ _ _ _ _ => ⟨rfl, rfl⟩⟩

theorem briWriteByte_sameSource {ph : Nat} {v : Byte} {s t : State} (hm : s.env.model = .ref)
    (h : briWriteByte ph v s = .ok () t) : SameSource s.seq t.seq := by
  obtain ⟨u, hu, ht⟩ := seqStep_ok_move h
  obtain ⟨_, hu⟩ := onController_ref_ok hm hu
  rw [ht.seq]
  split at hu
  · cases hu
    exact SameSource.keeps.leaf s.seq _ _ _ _ _
  · cases hu

/-- What the chunk of `m` bytes from offset `w` on is to the write of the buffer `buf` at address `adr`. -/
structure ChunkFits (c : Cfg) (m0 : Mem) (a : Addr24) (adr w m : Nat) : Prop where
  wf : c.wf = true
  start : a.toNat = adr + w
  pos : 0 < m
  page : (adr + w) % c.pageSize + m ≤ c.pageSize
  fits : w + m < 2 ^ 32
  erased : ∀ i, w ≤ i → i < w + m → memRead m0 (adr + i) = 0xFF

section Chunk

variable {c : Cfg} {m0 : Mem} {a : Addr24} {size : Word} {adr w m k : Nat} {hs : HostSide} {s : State}

/-- The phase of the program frame of a chunk. -/
def ChunkFilling (c : Cfg) (m0 buf : Mem) (a : Addr24) (size : Word) (adr w m k : Nat) : Bri → Dev → Prop :=
  Filling c (txnQpp c a size) a.toNat (bufferBytes buf w m) (Programmed m0 buf adr w) (Programmed m0 buf adr (w + m)) k

theorem bufferBytes_length (buf : Mem) (w m : Nat) : (bufferBytes buf w m).length = m := by simp [bufferBytes]

section

variable (h : ChunkFits c m0 a adr w m)
include h

theorem ChunkFits.programs (buf : Mem) : EndsWith c (.program a.toNat (bufferBytes buf w m)) (Programmed m0 buf adr w)
    (Programmed m0 buf adr (w + m)) := fun _ hc hb hop hm =>
  hm.ends hb (h.start ▸ hop) (hc ▸ h.page) h.erased

theorem ChunkFits.ne_nil (buf : Mem) : bufferBytes buf w m ≠ [] :=
  List.ne_nil_of_length_pos (by rw [bufferBytes_length]; exact h.pos)

theorem chunkFilling_steady (buf : Mem) (hk : k ≤ m) : Steady c (ChunkFilling c m0 buf a size adr w m k) :=
  filling_steady h.wf (h.ne_nil buf) (by rwa [bufferBytes_length]) (h.programs buf)

theorem writeOneByte_gives (hk : k < m) (hf : RefAt c hs (ChunkFilling c m0 hs.hbuf a size adr w m k) s)
    (hoff : s.seq.bufOff = BitVec.ofNat 32 w) (hidx : s.seq.idx = BitVec.ofNat 32 k) : (writeOneByte s).Gives fun _ t =>
      RefAt c hs (ChunkFilling c m0 hs.hbuf a size adr w m (k + 1)) t ∧ t.seq.bufOff = BitVec.ofNat 32 w
        ∧ t.seq.idx = BitVec.ofNat 32 (k + 1) := by
  have hk' : k < (bufferBytes hs.hbuf w m).length := by rwa [bufferBytes_length]
  have hbyte : hbufRead s (s.seq.bufOff + s.seq.idx) = (bufferBytes hs.hbuf w m)[k] := by
    have hfits := h.fits
    have hsum : (s.seq.bufOff + s.seq.idx).toNat = w + k := by
      rw [hoff, hidx, ← BitVec.ofNat_add, BitVec.toNat_ofNat, Nat.mod_eq_of_lt (by omega)]
    rw [hbufRead, hsum, hf.host]
    simp [bufferBytes]
  have hkept : (briWriteByte 4 (bufferBytes hs.hbuf w m)[k] s).Gives fun _ t => SameSource s.seq t.seq :=
    fun _ _ e => briWriteByte_sameSource hf.model e
  rw [writeOneByte, hbyte]
  refine ((briWriteByte_fills (ph := 4) h.wf hk' (h.programs hs.hbuf) hf).and hkept).bind fun _ t ht => ?_
  obtain ⟨hfill, hoff', hidx'⟩ := ht
  exact .ok ⟨hfill.withSeq _, hoff'.trans hoff, by
    show t.seq.idx + 1 = _
    rw [hidx', hidx, BitVec.ofNat_add]
    rfl⟩

theorem writeBytes_gives : ∀ {n k : Nat} {s : State}, k + n = m → RefAt c hs (ChunkFilling c m0 hs.hbuf a size adr w m k) s →
    s.seq.bufOff = BitVec.ofNat 32 w → s.seq.idx = BitVec.ofNat 32 k → (writeBytes n s).Gives fun _ t =>
      RefAt c hs (ChunkFilling c m0 hs.hbuf a size adr w m m) t
  | 0, k, s, hn, hf, _, _ => by
    obtain rfl : k = m := hn
    exact .ok hf
  | n + 1, k, s, hn, hf, hoff, hidx => by
    have hsteady := chunkFilling_steady (size := size) h hs.hbuf (show k ≤ m by omega)
    refine ((callWaitOr_gives (ph := 3) (mask := maskFt) (e := true) (code := 3) hsteady hsteady (fun _ _ h _ => h) hf).keeps
      (callWaitOr_within (F := fun _ => True) (L := [(3, .busTimeout)]) SameSource.keeps rfl 3 maskFt true
        (by simp))).bind fun _ t ht => ?_
    obtain ⟨hfill, hoff', hidx'⟩ := ht
    refine (writeOneByte_gives h (by omega) hfill (hoff'.trans hoff) (hidx'.trans hidx)).bind fun _ u hu => ?_
    obtain ⟨hfill', hoff'', hidx''⟩ := hu
    exact writeBytes_gives (by omega) hfill' hoff'' hidx''

/-- A chunk that ends `Ok` has programmed its bytes (rule R151). -/
theorem sendChunk_gives (hat : ChunkOf m w (txnQpp c a size) s)
    (hs' : RefAt c hs (Settled (Rested (Programmed m0 hs.hbuf adr w))) s) : (sendChunk s).Gives fun _ t =>
      RefAt c hs (Settled (Rested (Programmed m0 hs.hbuf adr (w + m)))) t := by
  have hlatch := latch_phase c (Programmed m0 hs.hbuf adr w)
  have hwork := working_phase (h.programs hs.hbuf)
  have hrest := rested_phase c (Programmed m0 hs.hbuf adr (w + m))
  have hsteady := fun k (hk : k ≤ m) => chunkFilling_steady (size := size) h hs.hbuf hk
  rw [sendChunk]
  refine ((callWriteEnable_gives h.wf hs').keeps (callWriteEnable_within (F := fun _ => True) (L := enableResults 1)
    SameRange.keeps rfl trivial trivial fun p hp => hp)).bind fun _ t ht => ?_
  obtain ⟨ht, hkt⟩ := ht
  have hframe : txnQpp t.cfg (trunc24 t.seq.curAddr) t.seq.curSize = txnQpp c a size := by
    rw [hkt.curAddr, hkt.curSize, ht.cfg, ← hs'.cfg, hat.frame, hs'.cfg]
  rw [hframe]
  have hsent : ∀ b d, Sent (txnQpp c a size) (Latch (Programmed m0 hs.hbuf adr w)) b d →
      ChunkFilling c m0 hs.hbuf a size adr w m 0 b d := fun b d hx => by
    have hsize : s.seq.curSize = size := congrArg Txn.length hat.frame
    have hrem : b.rem = size.toNat := hx.rem
    have hlen : b.rem = (bufferBytes hs.hbuf w m).length := by rw [hrem, ← hsize, hat.size, bufferBytes_length]
    exact .pending hx.en hx.tc hx.cfg hx.dev (by rw [hx.out, hx.fifo]; rfl) (by rw [hx.out, hlen, List.length_nil, Nat.zero_add])
      (by rw [hlen, bufferBytes_length]; exact h.pos.ne')
  refine ((issue_gives hlatch.toDevSteady (hsteady 0 (Nat.zero_le _)) hsent ht).keeps (callIssue_within (F := fun _ => True)
    (L := [(2, .busTimeout)]) SameRange.keeps rfl 2 trivial (by simp))).bind fun _ u hu => ?_
  obtain ⟨hu, hku⟩ := hu
  have hoff : (setIdx 0 u).seq.bufOff = BitVec.ofNat 32 w := (hku.bufOff.trans hkt.bufOff).trans hat.off
  have hsize : u.seq.curSize.toNat = m := by rw [hku.curSize, hkt.curSize, hat.size]
  rw [hsize]
  refine (writeBytes_gives h (s := setIdx 0 u) (Nat.zero_add m) (hu.withSeq _) hoff rfl).bind fun _ v hv => ?_
  refine (callWaitOr_gives (hsteady m le_rfl) (commandDone_steady hwork.toDevSteady) (fun b d hb hf => ?_) hv).bind fun _ x hx => ?_
  · have htc : b.tc = true := by simpa [flagsMet, someFlag, maskTc, controllerFlags] using hf
    cases hb with
    | pending _ htc' => rw [htc] at htc'; cases htc'
    | finished hen hb hf _ hq => exact ⟨hen, hb, hf, hq⟩
  refine (briClearTc_gives (settled_steady hwork.toDevSteady)
    (fun b d h => ⟨h.en, rfl, h.fifo, fun hb => absurd (h.busy.symm.trans hb) nofun, h.dev⟩) hx).bind fun _ y hy => ?_
  exact callWaitNotBusy_gives h.wf hwork hrest (fun _ hd hb => hd.rested hb) hy

end

end Chunk

/-! ### The chunk loop -/

/-- A chunk stays in its page. -/
theorem chunkStart_mod_add_chunkSize_le {p a n j : Nat} (hp : 0 < p) (hn : 0 < n) (hj : j < chunkCount p a n) :
    chunkStart p a j % p + chunkSize p a n j ≤ p := by
  have hstart : chunkStart p a j / p = a / p + j := Nat.div_eq_of_lt_le (page_le_chunkStart p a j) (chunkStart_le_page hp a j)
  have hdiv := Nat.div_add_mod' (chunkStart p a j) p
  have hend := chunkStart_add_chunkSize hp hn hj
  have hle : chunkEnd p a n j ≤ (a / p + j + 1) * p := Nat.min_le_left _ _
  rw [hstart] at hdiv
  rw [Nat.succ_mul] at hle
  omega

theorem ChunkAt.chunkOf_cfg {c : Cfg} {s : State} {a n j : Nat} (h : ChunkAt c a n j s.seq) (hc : s.cfg = c)
    (hp : 0 < c.pageSize) (hn : 0 < n) (hn' : n < 2 ^ 32) (hj : j < chunkCount c.pageSize a n) :
    ChunkOf (chunkSize c.pageSize a n j) (chunkStart c.pageSize a j - a) (chunkTxn c a n j) s := by
  subst hc
  exact h.chunkOf hp hn hn' hj

section Loop

variable {c : Cfg} {m0 : Mem} {a n : Nat} {hs : HostSide} (hw : c.wf = true) (hcap : c.capacity ≤ 2 ^ 24) (hn : 0 < n)
  (hfit : a + n ≤ c.capacity) (herased : ∀ i, i < n → memRead m0 (a + i) = 0xFF)
include hw hcap hn hfit herased

theorem chunkFits {j : Nat} (hj : j < chunkCount c.pageSize a n) : ChunkFits c m0 (BitVec.ofNat 24 (chunkStart c.pageSize a j))
    a (chunkStart c.pageSize a j - a) (chunkSize c.pageSize a n j) := by
  have hp := Cfg.wf_pageSize_pos hw
  have hle := le_chunkStart hp a j
  have hlt := chunkStart_lt hn hj
  have hsum := chunkStart_add_chunkSize hp hn hj
  have hend := chunkEnd_le c.pageSize a n j
  refine ⟨hw, ?_, chunkSize_pos hp hn hj, ?_, by omega, fun i _ hi => herased i (by omega)⟩
  · rw [BitVec.toNat_ofNat, Nat.mod_eq_of_lt (by omega)]
    omega
  · rw [Nat.add_sub_cancel' hle]
    exact chunkStart_mod_add_chunkSize_le hp hn hj

/-- The chunks from the `j`-th on that end `Ok` have programmed the rest of the range. -/
theorem writeChunks_gives : ∀ {k j : Nat} {s : State}, j < chunkCount c.pageSize a n → ChunkAt c a n j s.seq →
    RefAt c hs (Settled (Rested (Programmed m0 hs.hbuf a (chunkStart c.pageSize a j - a)))) s →
    (writeChunks k s).Gives fun _ t => RefAt c hs (Settled (Rested (Programmed m0 hs.hbuf a n))) t
  | 0, _, _, _, _, _ => .refused _
  | k + 1, j, s, hj, hat, h => by
    have hp := Cfg.wf_pageSize_pos hw
    have hfits := chunkFits hw hcap hn hfit herased hj
    rw [writeChunks, writeChunk_eq, Res.bind_assoc]
    refine ((sendChunk_gives hfits (hat.chunkOf_cfg h.cfg hp hn (by omega) hj) h).keeps (sendChunk_within (F := fun _ => True)
      (L := writeResults) h.cfg trivial trivial (fun _ => trivial) fun p hp => hp)).bind fun _ t ht => ?_
    obtain ⟨hsent, hk⟩ := ht
    have hat' := hat.of_sameRange hk
    rw [Res.bind_ok]
    simp only [nextChunkRegs_lt_iff hat' hp hn (by omega : a + n < 2 ^ 32) hj]
    split
    · next hnext =>
      rw [chunkOffset_succ hp hn hnext] at hsent
      exact writeChunks_gives hnext (chunkAt_succ hsent.cfg hat' hp hn (by omega) hnext) (hsent.withSeq _)
    · next hlast =>
      rw [chunkOffset_last hp hn (by omega)] at hsent
      exact .ok (hsent.withSeq _)

end Loop

/-- WRITE that ends `Ok` on an erased range has programmed it (rules R73, R151). -/
theorem write_gives {c : Cfg} {m : Mem} {addr len : Word} {hs : HostSide} {s : State} (hw : c.wf = true)
    (hcap : c.capacity ≤ 2 ^ 24) (hfit : addr.toNat + len.toNat ≤ c.capacity)
    (herased : ∀ i, i < len.toNat → memRead m (addr.toNat + i) = 0xFF) (hm : Mem.wf m = true)
    (h : RefAt c hs (Settled (Rested (· = m))) s) : (write addr len s).Gives fun _ t =>
      RefAt c hs (Settled (Rested (Programmed m hs.hbuf addr.toNat len.toNat))) t := by
  have hzero : ∀ m', m' = m → Programmed m hs.hbuf addr.toNat 0 m' := by
    rintro _ rfl
    exact ⟨hm, fun x => (if_neg (by omega)).symm⟩
  have hstart : RefAt c hs (Settled (Rested (Programmed m hs.hbuf addr.toNat 0))) s := h.mono fun b d hb =>
    ⟨hb.en, hb.tc, hb.fifo, hb.drained, hb.dev.busy, hb.dev.op, hzero _ hb.dev.mem⟩
  by_cases hlen : len = 0
  · subst hlen
    rw [write, if_pos rfl]
    exact .ok hstart
  · have hp := Cfg.wf_pageSize_pos hw
    rw [write_eq hlen]
    obtain rfl := h.cfg
    refine writeChunks_gives hw hcap (toNat_pos_of_ne_zero hlen) hfit herased (chunkCount_pos _ _ _)
      (chunkAt_zero hp addr len s) ?_
    rw [chunkStart_zero, Nat.sub_self]
    exact hstart.withSeq _

/-- Settles O57: each chunk of the write programs its page-confined, erased part of the range. -/
theorem refWritePrograms : Obligations.RefWritePrograms := by
  intro s t addr len hready hmem hfit herased hexec h0
  obtain ⟨hm, hr, _, _, _, hw, hcap⟩ := id hready
  have hinit := (hostOp_completed rfl hr hexec).2
  rw [exec_write] at hexec
  obtain ⟨hi, hrun⟩ := gated_success hexec h0
  have hwithin := write_within (F := fun _ => True) (L := writeResults) (s := enterProc .write s) rfl addr len trivial trivial
    (fun _ _ _ => trivial) fun p hp => hp
  obtain ⟨_, u, hu, rfl⟩ := finish_success hwithin hr (by decide) hrun h0
  have hend := write_gives hw hcap hfit herased hmem (hready.refAt .write) hu
  obtain ⟨hwf, hbyte⟩ := hend.at_.dev.mem
  refine ⟨fun i hi => ?_, fun x hx => ?_, hwf, hend.host, hend.refReady hr (hinit.trans hi) hw hcap⟩
  · show memRead u.dev.mem _ = _
    rw [hbyte, if_pos (by omega), Nat.add_sub_cancel_left]
  · show memRead u.dev.mem x = _
    rw [hbyte, if_neg (by omega)]

/-- Settles O58: the write programs the range with the buffer's bytes, and the read stores the array's. -/
theorem refRoundTrip : Obligations.RefRoundTrip := by
  intro s t u addr len hready hmem hbuf hfit herased hwrite h0 hread h0' i hi
  obtain ⟨hbyte, _, _, hhost, hready'⟩ := refWritePrograms s t addr len hready hmem hfit herased hwrite h0
  have hcfg : t.cfg = s.cfg := (hostOp_completed rfl hready.2.1 hwrite).1.traced.cfg
  obtain ⟨hstored, _, _⟩ := refReadReturnsTheArray t u addr len hready' (hhost ▸ hbuf) (hcfg ▸ hfit) hread h0'
  rw [hstored i hi, hbyte i hi]

end Sys2Proof.Machine
end

section
/-! The prompt schedule of ENV-REF: after every SEQ step the controller has ended its frame and the device its operation, so a
4 KiB ERASE takes every wait at its first sample (rules R13, R161; the schedule PROMPT-0). -/

namespace Sys2Proof.Machine

/-! ### A part of a run, counted -/

/-- From `s` to `t` SEQ took steps of which the tally is `T`. -/
structure Took (T : Tally) (s t : State) : Prop where
  trace : Continues s t
  calls : tally (newCalls s t) = T
  now : t.env.now = s.env.now + T.steps

theorem Took.trans {T U : Tally} {s t u : State} (h : Took T s t) (k : Took U t u) : Took (T.add U) s u where
  trace := h.trace.trans k.trace
  calls := by rw [newCalls_trans h.trace k.trace, tally_append, h.calls, k.calls]
  now := by rw [k.now, h.now, Nat.add_assoc]; rfl

/-- `k` steps with the frames `xs`, no tick and no byte supplied. -/
def Tally.plain (k : Nat) (xs : List Txn) : Tally := ⟨k, xs, 0, []⟩

/-- `Ok`, after steps of which the tally is `T`, as `Φ` says. -/
def Res.Goes {α : Type} (r : Res α) (s : State) (T : Tally) (Φ : α → State → Prop) : Prop :=
  ∃ a t, r = .ok a t ∧ Took T s t ∧ Φ a t

section Goes

variable {α β : Type} {r : Res α} {s : State} {T U : Tally} {Φ : α → State → Prop}

theorem Res.Goes.bind {V : Tally} {k : α → State → Res β} {Ψ : β → State → Prop} (h : r.Goes s T Φ)
    (hk : ∀ a t, Φ a t → (k a t).Goes t U Ψ) (hV : T.add U = V) : (r.bind k).Goes s V Ψ := by
  subst hV
  obtain ⟨a, t, rfl, ht, ha⟩ := h
  obtain ⟨b, u, hb, hu, hΨ⟩ := hk a t ha
  exact ⟨b, u, hb, ht.trans hu, hΨ⟩

/-- What follows takes no step. -/
theorem Res.Goes.pure {k : α → State → Res β} {Ψ : β → State → Prop} (h : r.Goes s T Φ)
    (hk : ∀ a t, Φ a t → ∃ b u, k a t = .ok b u ∧ u.env = t.env ∧ Ψ b u) : (r.bind k).Goes s T Ψ := by
  obtain ⟨a, t, rfl, ht, ha⟩ := h
  obtain ⟨b, u, hb, hu, hΨ⟩ := hk a t ha
  have hcalls : newCalls s u = newCalls s t := by rw [newCalls, newCalls, newEntries, newEntries, hu]
  obtain ⟨es, hes⟩ := ht.trace
  exact ⟨b, u, hb, ⟨⟨es, by rw [hu, hes]⟩, by rw [hcalls, ht.calls], by rw [hu, ht.now]⟩, hΨ⟩

/-- Registers are no part of what was taken. -/
theorem Res.Goes.of_withSeq {q : Seq} (h : r.Goes (s.withSeq q) T Φ) : r.Goes s T Φ := by
  obtain ⟨a, t, ht, htook, ha⟩ := h
  exact ⟨a, t, ht, ⟨htook.trace, htook.calls, htook.now⟩, ha⟩

theorem Res.Goes.recode (h : r.Goes s T Φ) (code : Byte) : (r.recode code).Goes s T Φ := by
  obtain ⟨a, t, rfl, ht, ha⟩ := h
  exact ⟨a, t, rfl, ht, ha⟩

end Goes

/-! ### The agents' turn on the prompt schedule -/

/-- The state of a prompt environment: `n` prompt answers to come, no reset, controller and device as `B` says. -/
structure Prompted (c : Cfg) (n : Nat) (B : Bri → Dev → Prop) (s : State) : Prop where
  cfg : s.cfg = c
  model : s.env.model = .ref
  resetAt : s.host.resetAt = none
  inputs : s.env.inputs = List.replicate n promptDraw
  at_ : B s.bri s.dev

/-- A turn of the agents leads from `B` to `B'`. -/
def Turns (c : Cfg) (B B' : Bri → Dev → Prop) : Prop :=
  ∀ u : State, u.cfg = c → B u.bri u.dev → ∃ v, agentSteps promptDraw.moves u = .ok () v ∧ B' v.bri v.dev

/-- The device is idle, with the latch if `w`. -/
structure Still (w : Bool) (d : Dev) : Prop where
  busy : d.busy = false
  wel : w = true → d.wel = true

/-- Nothing for the controller to do: no frame, or one that waits for SEQ to pop its bytes. -/
def Inert (b : Bri) : Prop := b.busy = false ∨ b.cfg.direction = .read ∧ b.rem = 0 ∧ b.fifo ≠ []

section Turn

variable {c : Cfg} {n : Nat} {B B' : Bri → Dev → Prop} {s u v : State} {w : Bool}

theorem controllerStep_inert (h : Inert u.bri) : controllerStep u = .ok () u := by
  by_cases hrun : u.bri.en = true ∧ u.bri.busy = true
  · rcases h with h | ⟨hdir, hrem, hfifo⟩
    · rw [h] at hrun
      exact absurd hrun.2 nofun
    · rw [controllerStep_read hrun.1 hrun.2 hdir, readFrameStep, if_pos hrem, if_neg hfifo]
  · exact if_neg (by simpa using hrun)

/-- A turn in which the controller is done after its first step. -/
theorem agentSteps_prompt (h : controllerStep u = .ok () v) (hv : Inert v.bri) :
    agentSteps promptDraw.moves u = .ok () (deviceEnd v) := by
  have hstep := controllerStep_inert hv
  have hend : controllerStep (deviceEnd v) = .ok () (deviceEnd v) :=
    controllerStep_inert ((deviceEnd_move v).bri.symm ▸ hv)
  simp [promptDraw, agentSteps, agentStep, h, hstep, hend]

/-- The same with an idle device. -/
theorem agentSteps_prompt_idle (h : controllerStep u = .ok () v) (hv : Inert v.bri) (hd : v.dev.busy = false) :
    agentSteps promptDraw.moves u = .ok () v := by
  rw [agentSteps_prompt h hv, deviceEnd_idle hd]

/-- A turn with nothing to do. -/
theorem agentSteps_idle (h : Inert u.bri) (hd : u.dev.busy = false) : agentSteps promptDraw.moves u = .ok () u :=
  agentSteps_prompt_idle (controllerStep_inert h) h hd

theorem turns_inert (h : ∀ b d, B b d → Inert b ∧ d.busy = false) : Turns c B B := fun u _ hb => by
  obtain ⟨hi, hd⟩ := h _ _ hb
  exact ⟨u, agentSteps_idle hi hd, hb⟩

/-- A SEQ step on the prompt schedule. -/
theorem seqStep_goes {α : Type} {ph : Nat} {act : Draw → State → Res α} {T : Tally} {Φ : α → Bri → Dev → Prop}
    {Ψ : α → Bri → Dev → Prop} (h : Prompted c (n + 1) B s)
    (hact : ∀ d u, u.cfg = c → u.env.model = .ref → B u.bri u.dev → ∃ a b call,
      act d u = .ok a (record call (u.withBri b)) ∧ tally [call] = T ∧ Φ a b u.dev)
    (hT : T.steps = 1) (hturn : ∀ a, Turns c (Φ a) (Ψ a)) :
    (seqStep ph s act).Goes s T fun a t => Prompted c n (Ψ a) t := by
  obtain ⟨hcfg, hmodel, hreset, hinputs, hat⟩ := h
  obtain ⟨a, b, call, hok, htally, hΦ⟩ := hact (nextDraw s) (advance (setPhase ph s)) hcfg hmodel hat
  obtain ⟨v, hv, hΨ⟩ := hturn a (record call ((advance (setPhase ph s)).withBri b)) hcfg hΦ
  have hdraw : nextDraw s = promptDraw := by rw [nextDraw, hinputs]; rfl
  have hother : otherAgents (nextDraw s) (record call ((advance (setPhase ph s)).withBri b)) = .ok () v := by
    have hmodel' : (record call ((advance (setPhase ph s)).withBri b)).env.model = .ref := hmodel
    rw [otherAgents_ref _ hmodel', hdraw, hv]
  have hmove := otherAgents_move hother
  have hstep : seqStep ph s act = .ok a v :=
    seqStep_eq_ok.mpr ⟨by rw [hreset]; nofun, _, hok, hother⟩
  refine ⟨a, v, hstep, ⟨⟨[_], by rw [hmove.env]; rfl⟩, ?_, by rw [hmove.env, hT]; rfl⟩, hmove.cfg.trans hcfg, ?_,
    by rw [hmove.host]; exact hreset, ?_, hΨ⟩
  · rw [newCalls_of_trace_cons (by rw [hmove.env]; rfl), htally]
  · rw [hmove.env]
    exact hmodel
  · rw [hmove.env]
    exact congrArg List.tail hinputs

end Turn

/-! ### SEQ's steps -/

section Primitives

variable {c : Cfg} {n ph : Nat} {B B' : Bri → Dev → Prop} {s : State} {w : Bool}

theorem onController_enabled {α : Type} {u : State} {x y : Res α} (hm : u.env.model = .ref) (hen : u.bri.en = true) :
    onController u x y = y := by
  simp [onController, hm, hen]

theorem Turns.and (h : Turns c B B') (p : Prop) : Turns c (fun b d => p ∧ B b d) fun b d => p ∧ B' b d :=
  fun u hc hb => by
    obtain ⟨v, hv, hb'⟩ := h u hc hb.2
    exact ⟨v, hv, hb.1, hb'⟩

theorem briFlags_goes {mask : FlagSet} {e : Bool} (hen : ∀ b d, B b d → b.en = true)
    (hmet : ∀ b d, B b d → flagsMet mask e (controllerFlags c b) = true) (hturn : Turns c B B) (h : Prompted c (n + 1) B s) :
    (briFlags ph s).Goes s (.plain 1 []) fun f t => Prompted c n (fun b d => flagsMet mask e f = true ∧ B b d) t :=
  seqStep_goes (Φ := fun f b d => flagsMet mask e f = true ∧ B b d) h
    (fun _ u hc hm hb => ⟨_, u.bri, _, onController_enabled hm (hen _ _ hb), rfl, hc ▸ hmet _ _ hb, hb⟩) rfl
    fun _ => hturn.and _

theorem briConfigure_goes {x : Txn} (hturn : Turns c (fun b d => Quiet (Still w) b d ∧ b.cfg = x) B')
    (h : Prompted c (n + 1) (Quiet (Still w)) s) :
    (briConfigure ph x s).Goes s (.plain 1 [x]) fun _ t => Prompted c n B' t :=
  seqStep_goes (Φ := fun _ b d => Quiet (Still w) b d ∧ b.cfg = x) (Ψ := fun _ => B') h
    (fun _ u _ hm hb => ⟨(), { u.bri with cfg := x }, .configure x,
      (onController_enabled hm hb.en).trans (if_neg (by rw [hb.busy]; nofun)), rfl,
      ⟨⟨hb.en, hb.tc, hb.fifo, fun h => absurd (hb.busy.symm.trans h) nofun, hb.dev⟩, hb.busy⟩, rfl⟩) rfl fun _ => hturn

theorem briTrigger_goes {x : Txn} (hturn : Turns c (Sent x (Still w)) B')
    (h : Prompted c (n + 1) (fun b d => Quiet (Still w) b d ∧ b.cfg = x) s) :
    (briTrigger ph s).Goes s (.plain 1 []) fun _ t => Prompted c n B' t :=
  seqStep_goes (Φ := fun _ => Sent x (Still w)) (Ψ := fun _ => B') h
    (fun _ u _ hm hb => ⟨(), { u.bri with busy := true, rem := u.bri.cfg.length.toNat, out := [] }, .trigger,
      onController_enabled hm hb.1.en, rfl,
      ⟨hb.1.en, rfl, hb.1.tc, hb.1.fifo, congrArg (·.length.toNat) hb.2, rfl, hb.2, hb.1.dev⟩⟩) rfl fun _ => hturn

theorem briClearTc_goes {B₁ : Bri → Dev → Prop} (hen : ∀ b d, B b d → b.en = true)
    (hi : ∀ b d, B b d → B₁ { b with tc := false } d) (hturn : Turns c B₁ B') (h : Prompted c (n + 1) B s) :
    (briClearTc ph s).Goes s (.plain 1 []) fun _ t => Prompted c n B' t :=
  seqStep_goes (Φ := fun _ => B₁) (Ψ := fun _ => B') h
    (fun _ u _ hm hb => ⟨(), { u.bri with tc := false }, .clearTc, onController_enabled hm (hen _ _ hb), rfl, hi _ _ hb⟩) rfl
    fun _ => hturn

theorem briClearAll_goes {B₁ : Bri → Dev → Prop} (hen : ∀ b d, B b d → b.en = true)
    (hi : ∀ b d, B b d → B₁ { b with tc := false } d) (hturn : Turns c B₁ B') (h : Prompted c (n + 1) B s) :
    (briClearAll ph s).Goes s (.plain 1 []) fun _ t => Prompted c n B' t :=
  seqStep_goes (Φ := fun _ => B₁) (Ψ := fun _ => B') h
    (fun _ u _ hm hb => ⟨(), { u.bri with tc := false }, .clearAll, onController_enabled hm (hen _ _ hb), rfl, hi _ _ hb⟩) rfl
    fun _ => hturn

theorem call_goes {α : Type} {m : Nat} {p : Proc} {T : Tally} {body : State → Res α} {B' : α → Bri → Dev → Prop}
    (h : Prompted c n B s) (hb : ∀ t, Prompted c n B t → (body t).Goes t T fun a u => Prompted c m (B' a) u) :
    (call ph p s body).Goes s T fun a u => Prompted c m (B' a) u := by
  obtain ⟨a, t, ht, htook, hp⟩ := hb (pushProc p (setPhase ph s)) ⟨h.cfg, h.model, h.resetAt, h.inputs, h.at_⟩
  exact ⟨a, popProc t, by rw [call, ht]; rfl, ⟨htook.trace, htook.calls, htook.now⟩,
    hp.cfg, hp.model, hp.resetAt, hp.inputs, hp.at_⟩

theorem Prompted.withSeq (h : Prompted c n B s) (q : Seq) : Prompted c n B (s.withSeq q) :=
  ⟨h.cfg, h.model, h.resetAt, h.inputs, h.at_⟩

/-- A bus wait that is met at its first sample. -/
theorem callWait_goes {mask : FlagSet} {e : Bool} (hN : c.busWaitTicks ≠ 0) (hen : ∀ b d, B b d → b.en = true)
    (hmet : ∀ b d, B b d → flagsMet mask e (controllerFlags c b) = true) (hturn : Turns c B B) (h : Prompted c (n + 1) B s) :
    (callWait ph mask e s).Goes s (.plain 1 []) fun a t => Prompted c n (fun b d => a = .met ∧ B b d) t := by
  refine call_goes (B' := fun a b d => a = Waited.met ∧ B b d) h fun t ht => ?_
  obtain ⟨k, hk⟩ := Nat.exists_eq_succ_of_ne_zero (toNat_pos_of_ne_zero hN).ne'
  rw [waitFlag, h.cfg, hk, waitFlagLoop]
  refine Res.Goes.of_withSeq (s := t) ((briFlags_goes hen hmet hturn (ht.withSeq _)).pure fun f u hu => ?_)
  rw [if_pos hu.at_.1]
  exact ⟨.met, u, rfl, rfl, hu.cfg, hu.model, hu.resetAt, hu.inputs, rfl, hu.at_.2⟩

theorem callWaitOr_goes {mask : FlagSet} {e : Bool} {code : Byte} (hN : c.busWaitTicks ≠ 0)
    (hen : ∀ b d, B b d → b.en = true) (hmet : ∀ b d, B b d → flagsMet mask e (controllerFlags c b) = true)
    (hturn : Turns c B B) (h : Prompted c (n + 1) B s) :
    ((callWait ph mask e s).orTimeout code).Goes s (.plain 1 []) fun _ t => Prompted c n B t := by
  refine (callWait_goes hN hen hmet hturn h).pure fun a t ht => ?_
  obtain ⟨hc, hm, hr, hin, rfl, hb⟩ := ht
  exact ⟨(), t, rfl, rfl, hc, hm, hr, hin, hb⟩

end Primitives

end Sys2Proof.Machine
end

section
/-! A 4 KiB ERASE on the prompt schedule of ENV-REF: every wait is met at its first sample, and so it succeeds (rules R121,
R131, R132, R161). -/

namespace Sys2Proof.Machine

/-! ### The controller between SEQ's steps -/

/-- A command frame is complete, and TC shows it. -/
structure Raised (w : Bool) (b : Bri) (d : Dev) : Prop where
  en : b.en = true
  busy : b.busy = false
  tc : b.tc = true
  fifo : b.fifo = []
  dev : Still w d

/-- A status byte says that the device is not busy and, if `w`, that it has the latch. -/
def Promising (c : Cfg) (w : Bool) (v : Byte) : Prop := statusBusy c v = false ∧ (w = true → statusWel c v = true)

/-- The byte of a status frame waits for SEQ; `tc` is the flag. -/
structure Offered (c : Cfg) (w tc : Bool) (b : Bri) (d : Dev) : Prop where
  en : b.en = true
  tc : b.tc = tc
  fifo : ∃ v, b.fifo = [v] ∧ Promising c w v
  rem : b.rem = 0
  read : b.cfg.direction = .read
  dev : Still w d

section Turns

variable {c : Cfg} {w w' tc : Bool} {x : Txn}

theorem quiet_turns (c : Cfg) (w : Bool) : Turns c (Quiet (Still w)) (Quiet (Still w)) :=
  turns_inert fun _ _ h => ⟨.inl h.busy, h.dev.busy⟩

theorem configured_turns (c : Cfg) (w : Bool) (x : Txn) :
    Turns c (fun b d => Quiet (Still w) b d ∧ b.cfg = x) fun b d => Quiet (Still w) b d ∧ b.cfg = x :=
  turns_inert fun _ _ h => ⟨.inl h.1.busy, h.1.dev.busy⟩

theorem raised_turns (c : Cfg) (w : Bool) : Turns c (Raised w) (Raised w) := turns_inert fun _ _ h => ⟨.inl h.busy, h.dev.busy⟩

theorem offered_turns (c : Cfg) (w tc : Bool) : Turns c (Offered c w tc) (Offered c w tc) := turns_inert fun _ _ h => by
  obtain ⟨v, hv, _⟩ := h.fifo
  exact ⟨.inr ⟨h.read, h.rem, by rw [hv]; nofun⟩, h.dev.busy⟩

/-- A drained read frame ends. -/
theorem settled_turns (c : Cfg) (w : Bool) : Turns c (Settled (Still w)) (Quiet (Still w)) := fun u hc h => by
  cases hb : u.bri.busy with
  | false => exact quiet_turns c w u hc ⟨h, hb⟩
  | true =>
    obtain ⟨hrem, hdir⟩ := h.drained hb
    have hstep : controllerStep u = .ok () (u.withBri { u.bri with busy := false }) := by
      rw [controllerStep_read h.en hb hdir, readFrameStep, if_pos hrem, if_pos h.fifo]
    exact ⟨_, agentSteps_prompt_idle hstep (.inl rfl) h.dev.busy, ⟨h.en, h.tc, h.fifo, nofun, h.dev⟩, rfl⟩

/-- The device takes the frame, and has the latch after it if `w'`. -/
def Accepts (c : Cfg) (x : Txn) (w w' : Bool) : Prop :=
  ∀ u : State, u.cfg = c → Still w u.dev →
    ∃ v, deliver (frameOf x []) u = .ok () v ∧ (w' = true → v.dev.busy = false ∧ v.dev.wel = true)

theorem deviceEnd_not_busy (u : State) : (deviceEnd u).dev.busy = false := by
  cases hb : u.dev.busy with
  | false => rwa [deviceEnd_idle hb]
  | true => rw [deviceEnd_dev hb]

/-- A command frame reaches the device, which ends what it started. -/
theorem command_turns (hx : x.direction = .none) (ha : Accepts c x w w') : Turns c (Sent x (Still w)) (Raised w') :=
  fun u hc h => by
    obtain ⟨v, hv, hw'⟩ := ha u hc h.dev
    have hbri := deliver_bri hv
    have hstep : controllerStep u = .ok () (v.withBri { v.bri with tc := true, busy := false }) := by
      rw [controllerStep_none h.en h.busy (by rw [h.cfg, hx]), commandFrameStep, h.cfg, hv]
      rfl
    refine ⟨_, agentSteps_prompt hstep (.inl rfl), ?_⟩
    rw [(deviceEnd_move (v.withBri { v.bri with tc := true, busy := false })).bri]
    refine ⟨(congrArg Bri.en hbri).trans h.en, rfl, rfl, (congrArg Bri.fifo hbri).trans h.fifo, deviceEnd_not_busy _,
      fun hw => ?_⟩
    obtain ⟨hb, hl⟩ := hw' hw
    rwa [deviceEnd_idle (s := v.withBri { v.bri with tc := true, busy := false }) hb]

variable (hw : c.wf = true)
include hw

theorem fifoDepth_pos : 0 < c.fifoDepth := by
  simp only [Cfg.wf, Bool.and_eq_true, decide_eq_true_eq] at hw
  omega

/-- The status byte of an idle device reaches the FIFO. -/
theorem status_turns : Turns c (Sent (txnRdsr c) (Still w)) (Offered c w true) := fun u hc h => by
  have hrem : u.bri.rem = 1 := h.rem
  have hfirst : u.bri.rem = u.bri.cfg.length.toNat := by rw [h.cfg]; exact h.rem
  have hstep : controllerStep u = .ok () (takeByte (openAnswer .status u)) := by
    rw [controllerStep_read h.en h.busy (by rw [h.cfg]; rfl), readFrameStep, if_neg (by rw [hrem]; nofun),
      if_pos (by rw [h.fifo, hc]; exact fifoDepth_pos hw), openReadFrame, if_pos hfirst, h.cfg, deliver_rdsr hc, Res.bind_ok]
  have hbyte := takeByte_status (u := openAnswer .status u) rfl
  rw [hbyte] at hstep
  have hfifo : u.bri.fifo ++ [statusByte u.cfg (openAnswer .status u).dev] = [statusByte c (openAnswer .status u).dev] := by
    rw [h.fifo, hc]
    rfl
  have hr0 : u.bri.rem - 1 = 0 := by omega
  have hdir : u.bri.cfg.direction = .read := by rw [h.cfg]; rfl
  refine ⟨_, agentSteps_prompt_idle hstep (.inr ⟨hdir, hr0, List.append_ne_nil_of_right_ne_nil _ nofun⟩) h.dev.busy, ?_⟩
  refine ⟨h.en, ?_, ⟨_, hfifo, ?_, fun hl => ?_⟩, hr0, hdir, h.dev.busy, h.dev.wel⟩
  · show (u.bri.tc || u.bri.rem - 1 == 0) = true
    rw [hr0, beq_self_eq_true, Bool.or_true]
  · rw [statusBusy_statusByte hw]
    exact h.dev.busy
  · rw [statusWel_statusByte hw]
    exact h.dev.wel hl

theorem accepts_wren : Accepts c (commandTxn c.opWriteEnable none) false true := fun u hc h => by
  have hexec : execWren u = .next (disarm (u.withDev { u.dev with wel := true })) := by simp [execWren, h.busy]
  refine ⟨disarm (u.withDev { u.dev with wel := true }), ?_, fun _ => ⟨h.busy, rfl⟩⟩
  rw [deliver, hc, decodeFrame_wren hw rfl]
  show Res.ofOutcome (execWren u) = _
  rw [hexec]
  rfl

theorem accepts_erase {a : Addr24} (hfit : blockStart c.subsectorSize a + c.subsectorSize ≤ c.capacity) :
    Accepts c (commandTxn c.opErase4K (some a)) true false := fun u hc h => by
  refine ⟨startOp (.erase (blockStart c.subsectorSize a) (blockStart c.subsectorSize a + c.subsectorSize)) u, ?_,
    fun h => nomatch h⟩
  rw [deliver, hc, decodeFrame_se4k hw rfl]
  show Res.ofOutcome (execSe4k a u) = _
  rw [execSe4k, hc, eraseFrame_starts h.busy (h.wel rfl) (by rwa [hc])]
  rfl

end Turns

/-! ### Procedures -/

section Procedures

variable {c : Cfg} {n ph : Nat} {code : Byte} {x : Txn} {w w' : Bool} {s : State} (hN : c.busWaitTicks ≠ 0)
include hN

/-- ISSUE finds the controller idle. -/
theorem callIssue_goes {B' : Bri → Dev → Prop} (hturn : Turns c (Sent x (Still w)) B')
    (h : Prompted c (n + 3) (Quiet (Still w)) s) :
    (callIssue ph code x s).Goes s (.plain 3 [x]) fun _ t => Prompted c n B' t := by
  have hcall : (call ph .issue s (issue x)).Goes s (.plain 3 [x]) fun a t =>
      Prompted c n (fun b d => a = Waited.met ∧ B' b d) t := by
    refine call_goes h fun t ht => ?_
    refine (callWait_goes hN (fun _ _ h => h.en) (fun b d h => ?_) (quiet_turns c w) ht).bind (U := .plain 2 [x])
      (fun a u hu => ?_) rfl
    · simp [flagsMet, someFlag, maskBusy, controllerFlags, h.busy]
    · obtain ⟨hc, hm, hr, hin, rfl, hb⟩ := hu
      have hu : Prompted c (n + 2) (Quiet (Still w)) u := ⟨hc, hm, hr, hin, hb⟩
      have hstart : (startFrame x u).Goes u (.plain 2 [x]) fun _ v => Prompted c n B' v :=
        ((briConfigure_goes (configured_turns c w x) (hu.withSeq _)).bind (U := .plain 1 [])
          (fun _ v hv => briTrigger_goes hturn hv) rfl).of_withSeq
      exact hstart.pure fun _ v hv => ⟨.met, v, rfl, rfl, hv.cfg, hv.model, hv.resetAt, hv.inputs, rfl, hv.at_⟩
  refine hcall.pure fun a t ht => ?_
  obtain ⟨hc, hm, hr, hin, rfl, hb⟩ := ht
  exact ⟨(), t, rfl, rfl, hc, hm, hr, hin, hb⟩

/-- SEND_COMMAND: the frame is complete when TC is first sampled. -/
theorem callSendCommand_goes {op : Byte} {a : Option Addr24} (ha : Accepts c (commandTxn op a) w w')
    (h : Prompted c (n + 5) (Quiet (Still w)) s) :
    (callSendCommand ph code op a s).Goes s (.plain 5 [commandTxn op a]) fun _ t => Prompted c n (Quiet (Still w')) t := by
  refine Res.Goes.recode (call_goes (B' := fun _ => Quiet (Still w')) h fun t ht => ?_) code
  refine (callIssue_goes hN (command_turns (commandTxn_direction op a) ha) ht).bind (U := .plain 2 []) (fun _ u hu => ?_) rfl
  refine (callWaitOr_goes hN (fun _ _ h => h.en) (fun b d h => ?_) (raised_turns c w') hu).bind (U := .plain 1 [])
    (fun _ v hv => ?_) rfl
  · simp [flagsMet, someFlag, maskTc, controllerFlags, h.tc]
  · exact briClearTc_goes (fun _ _ h => h.en)
      (fun b d h => ⟨⟨h.en, rfl, h.fifo, fun hb => absurd (h.busy.symm.trans hb) nofun, h.dev⟩, h.busy⟩) (quiet_turns c w') hv

omit hN in
theorem briReadByte_goes (h : Prompted c (n + 1) (Offered c w false) s) : (briReadByte ph s).Goes s (.plain 1 []) fun v t =>
    Prompted c n (fun b d => Promising c w v ∧ Quiet (Still w) b d) t :=
  seqStep_goes (Φ := fun v b d => Promising c w v ∧ Settled (Still w) b d) h
    (fun _ u _ hm hb => by
      obtain ⟨v, hf, hv⟩ := hb.fifo
      refine ⟨v, { u.bri with fifo := [] }, .readByte v, ?_, rfl, hv, hb.en, hb.tc, rfl, fun _ => ⟨hb.rem, hb.read⟩, hb.dev⟩
      rw [onController_enabled hm hb.en, hf]) rfl
    fun _ => (settled_turns c w).and _

variable (hw : c.wf = true)
include hw

/-- READ_STATUS: the byte says what the device is. -/
theorem callReadStatus_goes (h : Prompted c (n + 6) (Quiet (Still w)) s) :
    ((callReadStatus ph s).recode code).Goes s (.plain 6 [txnRdsr c]) fun v t =>
      Prompted c n (fun b d => Promising c w v ∧ Quiet (Still w) b d) t := by
  refine Res.Goes.recode (call_goes (B' := fun v b d => Promising c w v ∧ Quiet (Still w) b d) h fun t ht => ?_) code
  rw [readStatus, ht.cfg]
  refine (callIssue_goes hN (status_turns hw) ht).bind (U := .plain 3 []) (fun _ u hu => ?_) rfl
  refine (callWaitOr_goes hN (fun _ _ h => h.en) (fun b d h => ?_) (offered_turns c w true) hu).bind (U := .plain 2 [])
    (fun _ v hv => ?_) rfl
  · simp [flagsMet, someFlag, maskTc, controllerFlags, h.tc]
  refine (briClearTc_goes (B' := Offered c w false) (fun _ _ h => h.en)
    (fun b d h => ⟨h.en, rfl, h.fifo, h.rem, h.read, h.dev⟩) (offered_turns c w false) hv).bind (U := .plain 1 [])
    (fun _ y hy => ?_) rfl
  refine (briReadByte_goes hy).pure fun a z hz => ⟨a, _, rfl, rfl, hz.withSeq _⟩

/-- WRITE_ENABLE: the first status byte shows the latch. -/
theorem callWriteEnable_goes (hW : c.welRetry ≠ 0) (h : Prompted c (n + 11) (Quiet (Still false)) s) :
    (callWriteEnable s).Goes s (.plain 11 [txnCmd c.opWriteEnable, txnRdsr c]) fun _ t =>
      Prompted c n (Quiet (Still true)) t := by
  refine Res.Goes.recode (call_goes (B' := fun _ => Quiet (Still true)) h fun t ht => ?_) 1
  rw [writeEnable, ht.cfg]
  refine (callSendCommand_goes hN (accepts_wren hw) ht).bind (U := .plain 6 [txnRdsr c]) (fun _ u hu => ?_) rfl
  obtain ⟨k, hk⟩ := Nat.exists_eq_succ_of_ne_zero (toNat_pos_of_ne_zero hW).ne'
  rw [hu.cfg, hk, latchPoll]
  refine ((callReadStatus_goes hN hw (hu.withSeq _)).pure fun v y hy => ?_).of_withSeq
  rw [hy.cfg, if_pos (hy.at_.1.2 rfl)]
  exact ⟨(), y, rfl, rfl, hy.cfg, hy.model, hy.resetAt, hy.inputs, hy.at_.2⟩

/-- WAIT_NOT_BUSY: the first status byte shows the device not busy. -/
theorem callWaitNotBusy_goes {m : Word} (hm : m ≠ 0) (h : Prompted c (n + 6) (Quiet (Still w)) s) :
    (callWaitNotBusy ph code m s).Goes s (.plain 6 [txnRdsr c]) fun _ t => Prompted c n (Quiet (Still w)) t := by
  refine Res.Goes.pure (Res.Goes.recode (call_goes (B' := fun _ => Quiet (Still w)) h fun t ht => ?_) code)
    fun _ u hu => ⟨(), u, rfl, rfl, hu⟩
  obtain ⟨k, hk⟩ := Nat.exists_eq_succ_of_ne_zero (toNat_pos_of_ne_zero hm).ne'
  rw [waitNotBusy, hk, waitNotBusyLoop]
  refine ((callReadStatus_goes hN hw (ht.withSeq _)).pure fun v y hy => ?_).of_withSeq
  rw [hy.cfg, if_neg (by rw [hy.at_.1.1]; nofun)]
  exact ⟨v, y, rfl, rfl, hy.cfg, hy.model, hy.resetAt, hy.inputs, hy.at_.2⟩

/-- ERASE of a 4 KiB block that lies in the array. -/
theorem erase4K_goes {addr : Word} (hW : c.welRetry ≠ 0) (hE : variantTicks c .b4K ≠ 0)
    (hfit : blockStart c.subsectorSize (trunc24 addr) + c.subsectorSize ≤ c.capacity)
    (h : Prompted c 24 (Quiet (Still false)) s) :
    (erase addr .b4K s).Goes s (.plain 24 (eraseFrames c c.opErase4K (trunc24 addr))) fun _ t =>
      Prompted c 0 (Quiet (Still false)) t := by
  rw [erase, eraseBlock, h.cfg]
  refine (callWriteEnable_goes (n := 13) hN hw hW h).bind (U := .plain 13 [txnCmda c.opErase4K (trunc24 addr), txnRdsr c])
    (fun _ t ht => ?_) rfl
  refine (callSendCommand_goes (n := 8) hN (accepts_erase hw hfit) ht).bind (U := .plain 8 [txnRdsr c]) (fun _ u hu => ?_) rfl
  rw [hu.cfg]
  refine (callWaitNotBusy_goes (n := 2) hN hw hE hu).bind (U := .plain 2 []) (fun _ v hv => ?_) rfl
  refine (callWaitOr_goes (n := 1) hN (fun _ _ h => h.en) (fun b d h => ?_) (quiet_turns c false) hv).bind (U := .plain 1 [])
    (fun _ y hy => ?_) rfl
  · simp [flagsMet, someFlag, maskBusy, controllerFlags, h.busy]
  · exact briClearAll_goes (fun _ _ h => h.en) (fun b d h => ⟨⟨h.en, rfl, h.fifo, h.drained, h.dev⟩, h.busy⟩)
      (quiet_turns c false) hy

end Procedures

/-- Settles O60: each of the 24 steps finds the controller and the device done with what they had to do; what the erase has
made of the array is O59's. -/
theorem refPromptEraseCompletes : Obligations.RefPromptEraseCompletes := by
  intro s addr hready hbusy hmem hN hW hE hinputs lo hfit
  obtain ⟨hm, hr, hi, ⟨hen, htc, hfifo, hdrained⟩, ⟨hdev, _⟩, hw, hcap⟩ := id hready
  have hsub := Cfg.wf_subsectorSize_pos hw
  have haddr : addr.toNat < s.cfg.capacity := by
    have := Nat.mod_lt addr.toNat hsub
    omega
  have hstart : Prompted s.cfg 24 (Quiet (Still false)) (enterProc .erase s) :=
    ⟨rfl, hm, hr, hinputs, ⟨hen, htc, hfifo, hdrained, hdev, nofun⟩, hbusy⟩
  have hblock : blockStart s.cfg.subsectorSize (trunc24 addr) = lo := by
    rw [blockStart, toNat_trunc24 (haddr.trans_le hcap)]
  obtain ⟨_, u, hu, htook, _⟩ := erase4K_goes hN hw hW hE (by rwa [hblock]) hstart
  have hexec : exec (.erase addr .b4K) s = .next (complete 0 .none 0 u) := by
    rw [exec_erase, gated_open hi, hu]
    rfl
  obtain ⟨hbytes, _, hready'⟩ := refEraseErases s _ addr .b4K hready hmem haddr hexec rfl
  exact ⟨_, hexec, rfl, rfl, htook.now, congrArg Tally.ticks htook.calls, congrArg Tally.frames htook.calls, hbytes, hready'⟩

end Sys2Proof.Machine
end
